-- ==== Sys2Proof/Word.lean ====
section
/-! DEFINITION. The words of the block: a byte of an image, a 7-bit frame number, a 2-bit operation code. -/

namespace Sys2Proof

/-- One element of an image and one table entry: `EW = 8` bits (R6, R31). -/
abbrev Byte := BitVec 8

/-- A frame number: `FW = 7` bits, bits 6 to 0 of an entry (R6, R72). -/
abbrev Frame := BitVec 7

/-- The `op` field of a request: 2 bits (R75). -/
abbrev OpCode := BitVec 2

end Sys2Proof
end

