-- ==== Sys2Proof/Config.lean ====
section
/-! DEFINITION. The parameters of an instance (R5) and the reference instance (R8).
Nothing in the spec is left as a value the block produces freely, so there is no free constant here. -/

namespace Sys2Proof

/-- The machine geometry: the five constants of an instance (R5, R22). -/
structure Geometry where
  /-- `DW`, the directory-index width. -/
  dw : Nat
  /-- `TW`, the table-index width. -/
  tw : Nat
  /-- `OW`, the page-offset width. -/
  ow : Nat
  /-- `SW`, the disk-sector-index width: mirrors `OW`, read by no operation (R5, R128). -/
  sw : Nat
  /-- `PDBR`, the page-directory base physical address. -/
  pdbr : Nat
deriving DecidableEq, Repr

/-- The reference geometry (R8): 5-bit fields, `PDBR = 0xD80`. -/
def Geometry.reference : Geometry :=
  { dw := 5, tw := 5, ow := 5, sw := 5, pdbr := 0xD80 }

/-- `VIN` of the reference instance (R11): the width of the request argument port. -/
def Config.referenceVin : Nat := 16

/-- The nominal number of bytes of either image of the reference instance, `2^PAW` (R10). -/
def Config.referenceImageSize : Nat := 4096

end Sys2Proof
end

