-- ==== Sys2Proof/Syntax.lean ====
section
/-! DEFINITION. The operations of the block, one constructor per row of the operation table, and the request that selects one. -/

namespace Sys2Proof

/-- The rows of the operation table (R77, R78). Each operation has one operand, the request's `arg`;
it is an unsigned integer, since the operations are defined on every unsigned integer (R11). -/
inductive Instr where
  /-- TRANSLATE, `op = 00`: walk the two-level table for a virtual address (R120). -/
  | translate (vaddr : Nat)
  /-- DECOMPOSE, `op = 01`: split a virtual address into its three index fields (R100). -/
  | decompose (vaddr : Nat)
  /-- DECODE_ENTRY, `op = 10`: split a table entry into valid bit and frame (R110). -/
  | decodeEntry (arg : Nat)
  /-- The reserved code, `op = 11` (R78): the verdict "illegal". Its argument is ignored. -/
  | reserved (arg : Nat)
deriving DecidableEq, Repr

/-- The argument an operation was requested with. -/
def Instr.arg : Instr → Nat
  | .translate v => v
  | .decompose v => v
  | .decodeEntry a => a
  | .reserved a => a

/-- A request: what the one request port carries (R75). A request is complete in itself. -/
structure Request where
  /-- Which operation, 2 bits. -/
  op : OpCode
  /-- Its one operand, `VIN` bits on the port. -/
  arg : Nat
deriving DecidableEq, Repr

end Sys2Proof
end

