-- ==== Sys2Proof/WellFormed.lean ====
section
/-! DEFINITION. Which operations a request port of `VIN` bits can carry. -/

namespace Sys2Proof

/-- The argument fits the `VIN`-bit port (R11, R75). Nothing else can be ill-formed: no argument
value is illegal for any operation (R71, R76, R86). -/
def Instr.wf (vin : Nat) : Instr → Bool
  | .translate v => decide (v < 2 ^ vin)
  | .decompose v => decide (v < 2 ^ vin)
  | .decodeEntry a => decide (a < 2 ^ vin)
  | .reserved a => decide (a < 2 ^ vin)

/-- The request's argument fits the `VIN`-bit port (R11, R75). -/
def Request.fits (vin : Nat) (r : Request) : Bool := decide (r.arg < 2 ^ vin)

end Sys2Proof
end

