-- ==== Sys2Proof/Decode.lean ====
section
/-! DEFINITION. Bit fields; from a request, or a request word, to an operation; and back. -/

namespace Sys2Proof

/-- `mask(n) = (1 << n) - 1`, the integer with the low `n` bits set (R14). -/
def mask (n : Nat) : Nat := (1 <<< n) - 1

/-- `v[hi:lo]`, the unsigned integer made of bits `hi` down to `lo` of `v` (R12). -/
def slice (v hi lo : Nat) : Nat := (v >>> lo) &&& mask (hi - lo + 1)

/-- `{a, b}` with `b` seen as `n` bits wide: `a` stands in the bits above (R12). -/
def concat (a : Nat) (n b : Nat) : Nat := (a <<< n) + b

/-- Why a number is no request word. -/
inductive Reject where
  /-- The number has a bit set at or above position `VIN + 2`: all requests have the one length
  `2 + VIN` bits (R79, R87). -/
  | wordTooWide (w : Nat)
deriving DecidableEq, Repr

/-- The operation a request selects: the complete map of the 2-bit `op` field (R77). It is total;
the reserved code gives its own verdict and falls through to no other operation (R78). -/
def decode (r : Request) : Instr :=
  match r.op with
  | 0b00#2 => .translate r.arg
  | 0b01#2 => .decompose r.arg
  | 0b10#2 => .decodeEntry r.arg
  | 0b11#2 => .reserved r.arg

/-- The request that a word `{op[1:0], arg[VIN-1:0]}` carries (R79: `op` in bits 17:16 and `arg` in
bits 15:0 at `VIN = 16`; for another `VIN` the same layout, assumption 7). -/
def Request.ofWord (vin w : Nat) : Except Reject Request :=
  if w < 2 ^ (vin + 2) then
    .ok { op := BitVec.ofNat 2 (slice w (vin + 1) vin), arg := w &&& mask vin }
  else
    .error (.wordTooWide w)

/-- The operation a request word selects. Total on every number; rejects by name. -/
def decodeWord (vin w : Nat) : Except Reject Instr :=
  (Request.ofWord vin w).map decode

/-- The operation the reference instance's decoder reads from a table word (R79: 18 bits, `op` in
bits 17:16). The one request length makes `nbits` immaterial (R87). -/
def decodeTableWord (_nbits w : Nat) : Option Instr :=
  match decodeWord Config.referenceVin w with
  | .ok i => some i
  | .error _ => none

/-- The operation code of each operation (R77). -/
def Instr.op : Instr → OpCode
  | .translate _ => 0b00#2
  | .decompose _ => 0b01#2
  | .decodeEntry _ => 0b10#2
  | .reserved _ => 0b11#2

/-- The request that selects an operation (R75, R77). -/
def encode (i : Instr) : Request := { op := i.op, arg := i.arg }

/-- The word `{op, arg}` of a request (R79). -/
def Request.word (vin : Nat) (r : Request) : Nat := concat r.op.toNat vin r.arg

/-- The request word of an operation. -/
def encodeWord (vin : Nat) (i : Instr) : Nat := (encode i).word vin

end Sys2Proof
end

