-- ==== Sys2Proof/Machine/Geometry.lean ====
section
/-! DEFINITION. The quantities derived from the geometry (R7, R46) and the constraints a legal instance meets (R9, R11). -/

namespace Sys2Proof

/-- `VAW`, the width of a virtual address (R7). -/
def Geometry.vaw (g : Geometry) : Nat := g.dw + g.tw + g.ow

/-- `PAW`, the width of a final address, `FW + OW` (R7). -/
def Geometry.paw (g : Geometry) : Nat := 7 + g.ow

/-- `PTAW`, the width of a page-table-entry address, `FW + TW` (R7). -/
def Geometry.ptaw (g : Geometry) : Nat := 7 + g.tw

/-- `NDIR`, the number of entries in the page directory (R7). -/
def Geometry.ndir (g : Geometry) : Nat := 2 ^ g.dw

/-- `NTBL`, the number of entries in one page table (R7). -/
def Geometry.ntbl (g : Geometry) : Nat := 2 ^ g.tw

/-- `PAGE`, the number of bytes in one data page or disk sector (R7). -/
def Geometry.page (g : Geometry) : Nat := 2 ^ g.ow

/-- The number of bits needed to write an unsigned integer. -/
def bitlen (n : Nat) : Nat := if n = 0 then 0 else n.log2 + 1

/-- `XW`, the width of the MEM address port: wide enough for every address computed (R46). -/
def Geometry.xw (g : Geometry) : Nat :=
  max g.paw (max g.ptaw (bitlen (g.pdbr + g.ndir - 1)))

/-- The geometry is legal (R9): every width at least 1, `SW = OW`, `PDBR` page-aligned. -/
def Geometry.legal (g : Geometry) : Bool :=
  decide (1 ≤ g.dw) && decide (1 ≤ g.tw) && decide (1 ≤ g.ow) && decide (g.sw = g.ow)
    && decide (g.pdbr % 2 ^ g.ow = 0)

/-- The argument port can carry a virtual address and an entry byte: `VIN >= max(VAW, 8)` (R11). -/
def Geometry.portLegal (g : Geometry) (vin : Nat) : Bool := decide (max g.vaw 8 ≤ vin)

end Sys2Proof
end

