-- ==== Sys2Proof/Machine/State.lean ====
section
/-! DEFINITION. The state of one instance, the results it delivers, the reasons a step can stop, and the state after reset. -/

namespace Sys2Proof.Machine

/-- An image: `size` bytes at indexes `0` to `size - 1` (R24, R25, R41). `cells` lists, at strictly
rising indexes, the bytes that differ from what an unlisted index holds (`Memory.unlisted`). -/
structure Memory where
  size : Nat
  cells : List Host.Cell
deriving DecidableEq, Repr

/-- The three fields of a virtual address (R70), as DECOMPOSE returns them (R85, R100). -/
structure Fields where
  dirIndex : Nat
  tblIndex : Nat
  offset : Nat
deriving DecidableEq, Repr

/-- A decoded table entry (R72), as DECODE_ENTRY returns it (R85, R110); the same at both levels. -/
structure Entry where
  valid : Bool
  frame : Frame
deriving DecidableEq, Repr

/-- Where the resolved byte came from (R82). -/
inductive Location where
  | memory
  | disk
deriving DecidableEq, Repr

/-- Which read failed (R84). -/
inductive Site where
  | pde
  | pte
  | dataMem
  | dataDisk
deriving DecidableEq, Repr

/-- The two storage address spaces (R40). -/
inductive Space where
  | mem
  | disk
deriving DecidableEq, Repr

/-- One successful one-byte read (R44, R45). -/
structure Access where
  space : Space
  addr : Nat
deriving DecidableEq, Repr

/-- The translation path of one walk: what it has established so far (R80, R132). A field is `some`
exactly when the step that produces it was completed; an absent field is `none`, never zero (R83). -/
structure TranslationPath where
  fields : Fields
  pde : Option Entry
  pte : Option Entry
  finalAddr : Option Nat
deriving DecidableEq, Repr

/-- The result of one request, one constructor per outcome (R82, R150, R163). -/
inductive Result where
  /-- OK of DECOMPOSE (R85, R100). -/
  | decomposed (fields : Fields)
  /-- OK of DECODE_ENTRY (R85, R110). -/
  | decodedEntry (entry : Entry)
  /-- RESOLVED(location, value) of TRANSLATE (R130, R131, R132). -/
  | resolved (location : Location) (path : TranslationPath) (value : Byte)
  /-- DirectoryFault (R151). -/
  | directoryFault (path : TranslationPath)
  /-- TableFault (R152). -/
  | tableFault (path : TranslationPath)
  /-- OutOfRangeAccess, with the failing read and the exact address (R84, R153). -/
  | outOfRange (site : Site) (addr : Nat) (path : TranslationPath)
  /-- IllegalOp, the answer to the reserved code; it has no field (R78, R154). -/
  | illegalOp
deriving DecidableEq, Repr

/-- One instance and what passes between it and its host. No operation changes `geom`, `vin`, `mem`
or `disk` (R26); `pending` and `results` are the host interface, plain lists the step reads and
extends (assumption 1). -/
structure State where
  /-- The five geometry constants (R5, R22). -/
  geom : Geometry
  /-- `VIN`, the width of the request argument port (R11). -/
  vin : Nat
  /-- `MEM`, the memory image, with `MEM_SIZE` (R24, R10). -/
  mem : Memory
  /-- `DISK`, the backing-store image, with `DISK_SIZE` (R25, R10). -/
  disk : Memory
  /-- The requests the host has issued and the block has not yet performed, in issue order (R27). -/
  pending : List Request
  /-- The results delivered so far, one per request, in request order (R192). -/
  results : List Result
deriving DecidableEq, Repr

/-- Why the machine stops with a fault: never. Nothing in the block is stuck; DirectoryFault,
TableFault and OutOfRangeAccess are results and the machine goes on (R158, R159, R163). -/
inductive Fault where
deriving DecidableEq, Repr

/-- Why a step is refused. -/
inductive Refusal where
  /-- Raised by an arm of `exec` whose instruction has no meaning yet; no arm raises it. Safe. -/
  | notModelled (mnemonic : String)
  /-- Raised by `step` on an instance whose constants break R9 or R11. Such an instance "is refused by the
  model at construction and has no behaviour" (R9). Safe: nothing can be proved of it. -/
  | illegalInstance
deriving DecidableEq, Repr

/-- The launch state of the model: the reference instance (R8), idle, with nothing pending and nothing
delivered (R32, R180). The spec gives no contents of the images before the host loads them; here both have
the nominal size and list nothing (DESIGN CHOICE, assumption 2). -/
def State.reset : State :=
  { geom := Geometry.reference
    vin := Config.referenceVin
    mem := { size := Config.referenceImageSize, cells := [] }
    disk := { size := Config.referenceImageSize, cells := [] }
    pending := []
    results := [] }

end Sys2Proof.Machine
end

