-- ==== Sys2Proof/Machine/Operands.lean ====
section
/-! DEFINITION. Operand assembly (R74): the fields cut out of a virtual address and out of an entry byte, and the three addresses. -/

namespace Sys2Proof.Machine

/-- The document's formulas for the three fields of a virtual address (R100). -/
def splitAddress (g : Geometry) (vaddr : Nat) : Fields :=
  { dirIndex := (vaddr >>> (g.tw + g.ow)) &&& mask g.dw
    tblIndex := (vaddr >>> g.ow) &&& mask g.tw
    offset := vaddr &&& mask g.ow }

/-- The virtual address made of three fields (R101). -/
def joinAddress (g : Geometry) (f : Fields) : Nat :=
  (f.dirIndex <<< (g.tw + g.ow)) ||| (f.tblIndex <<< g.ow) ||| f.offset

/-- The document's formulas for the two fields of an entry (R110); bits 8 and up of the integer are
ignored (R76, R112). It does not classify: the frame is not compared with the sentinel. -/
def splitEntry (byte : Nat) : Entry :=
  { valid := (byte >>> 7) &&& 1 == 1
    frame := BitVec.ofNat 7 (byte &&& 0x7F) }

/-- The inverse of `splitEntry` on bytes, `(valid << 7) | frame` (R111). The block has no such
operation; it serves who builds an image. -/
def joinEntry (e : Entry) : Byte :=
  BitVec.ofNat 8 ((e.valid.toNat <<< 7) ||| e.frame.toNat)

/-- The reserved frame number of a page-table entry (R129). It is not examined in a directory entry (R123). -/
def sentinel : Frame := 0x7F#7

/-- Where the page directory begins (R50). -/
def directoryBase (g : Geometry) : Nat := g.pdbr

/-- Where the page table with a given frame number begins: the shift is `TW`, for every geometry (R124, R125). -/
def tableBase (g : Geometry) (f : Frame) : Nat := f.toNat <<< g.tw

/-- Where the data page or disk sector with a given frame number begins (R128). -/
def pageBase (g : Geometry) (f : Frame) : Nat := f.toNat <<< g.ow

/-- `PDBR + dirIndex`, exact (R47, R123). -/
def pdeAddr (g : Geometry) (f : Fields) : Nat := directoryBase g + f.dirIndex

/-- `(pdeFrame << TW) + tblIndex`, exact (R47, R124). -/
def pteAddr (g : Geometry) (pde : Entry) (f : Fields) : Nat := tableBase g pde.frame + f.tblIndex

/-- `(pteFrame << OW) + offset`, exact: a physical or a disk-sector address (R47, R128). -/
def finalAddress (g : Geometry) (pte : Entry) (f : Fields) : Nat := pageBase g pte.frame + f.offset

end Sys2Proof.Machine
end

