-- ==== Sys2Proof/Machine/Ops.lean ====
section
/-! DEFINITION. The named operations: reading and loading an image, one transaction with its reads,
delivering a result, and the host's moves. -/

namespace Sys2Proof.Machine

/-! ### Images -/

/-- What an index inside an image holds when the image lists nothing for it (assumption 2). -/
def Memory.unlisted : Byte := 0x00#8

/-- The byte a cell list gives an index. -/
def cellAt : List Host.Cell → Nat → Byte
  | [], _ => Memory.unlisted
  | (k, b) :: rest, a => if k = a then b else cellAt rest a

/-- One read port (R46): the byte at an exact address, or `none`, "out of range", when the address is
not below the image's size (R48). `MemRead` and `DiskRead` of R15. -/
def Memory.read (m : Memory) (a : Nat) : Option Byte :=
  if a < m.size then some (cellAt m.cells a) else none

/-- The entry decoded from the byte at an address. -/
def Memory.readEntry (m : Memory) (a : Nat) : Option Entry :=
  (m.read a).map fun b => splitEntry b.toNat

/-- The cells lie at rising indexes, each at least `lo` and below `size`, and none holds what an unlisted
index holds. -/
def cellsWf (size : Nat) : Nat → List Host.Cell → Bool
  | _, [] => true
  | lo, (k, b) :: rest =>
    decide (lo ≤ k) && decide (k < size) && decide (b ≠ Memory.unlisted) && cellsWf size (k + 1) rest

/-- The image is in its one canonical form, so that equal images are equal data. -/
def Memory.wf (m : Memory) : Bool := cellsWf m.size 0 m.cells

/-- The cells of a byte sequence whose first element has index `k`. -/
def cellsFrom (k : Nat) : List Byte → List Host.Cell
  | [] => []
  | b :: rest => if b = Memory.unlisted then cellsFrom (k + 1) rest else (k, b) :: cellsFrom (k + 1) rest

/-- Loading an image: the k-th byte the loader supplies becomes element k (R41, R182). -/
def Memory.load (bytes : List Byte) : Memory :=
  { size := bytes.length, cells := cellsFrom 0 bytes }

/-! ### Transactions -/

/-- One operation from request to result: the bytes it read, in order, and its result. It is atomic:
nothing observes the block between the reads (R21). -/
structure Transaction where
  reads : List Access
  result : Result
deriving DecidableEq, Repr

/-- `raise` and `return` (R16): the operation ends with this result and reads nothing more. This is all a
fault does: it saves nothing and goes nowhere (R158), and there is no return from it (R159). -/
def finish (r : Result) : Transaction := { reads := [], result := r }

/-- One bounded one-byte read (R48): inside the image, go on with the byte; outside, the read is not made and
the operation ends with OutOfRangeAccess, carrying the path established so far (R153). -/
def readByte (space : Space) (image : Memory) (addr : Nat) (site : Site) (path : TranslationPath)
    (next : Byte → Transaction) : Transaction :=
  match image.read addr with
  | none => finish (.outOfRange site addr path)
  | some b => { reads := { space := space, addr := addr } :: (next b).reads, result := (next b).result }

/-- The path after step 1 of a walk (R122). -/
def TranslationPath.start (f : Fields) : TranslationPath := { fields := f, pde := none, pte := none, finalAddr := none }

/-- The path after the directory entry was read (R123). -/
def TranslationPath.withPde (p : TranslationPath) (e : Entry) : TranslationPath := { p with pde := some e }

/-- The path after the table entry was read and the final address computed (R124, R128). -/
def TranslationPath.withPte (p : TranslationPath) (e : Entry) (a : Nat) : TranslationPath := { p with pte := some e, finalAddr := some a }

/-! ### Delivering a result -/

/-- The result is delivered in the step of its request (R32); nothing else changes (R26). -/
def State.deliver (s : State) (r : Result) : State := { s with results := s.results ++ [r] }

/-- A performed operation delivers its result, whatever the outcome: faults and errors are results (R158, R163). -/
def complete (s : State) (t : Transaction) : Host.Outcome State Fault Refusal :=
  .next (s.deliver t.result)

/-! ### The host's moves -/

/-- The instance is legal (R9, R11). -/
def State.legal (s : State) : Bool := s.geom.legal && s.geom.portLegal s.vin

/-- Construction (R22, R182): the host fixes the constants and supplies both images; an illegal instance is
refused here (R9). -/
def State.launch (g : Geometry) (vin : Nat) (memBytes diskBytes : List Byte) : Option State :=
  if g.legal && g.portLegal vin then
    some { geom := g, vin := vin, mem := Memory.load memBytes, disk := Memory.load diskBytes, pending := [], results := [] }
  else
    none

/-- The host issues a sequence of requests, a program (R88): they queue in issue order (R27). -/
def State.issue (s : State) (rs : List Request) : State := { s with pending := s.pending ++ rs }

/-- Reset: no request in progress, no result pending; constants and images are not touched (R32, R180). -/
def State.afterReset (s : State) : State := { s with pending := [], results := [] }

/-- The next request, its operation, and the state in which it is performed. -/
def State.fetch (s : State) : Option (Instr × State) :=
  match s.pending with
  | [] => none
  | r :: rest => some (decode r, { s with pending := rest })

/-- A request placed so that it is the next one performed. -/
def State.withRequest (s : State) (r : Request) : State := { s with pending := r :: s.pending }

end Sys2Proof.Machine
end

