-- ==== Sys2Proof/Machine/Decomposer.lean ====
section
/-! DEFINITION. DECOMPOSE, the virtual-address decomposer (R100 to R103). -/

namespace Sys2Proof.Machine

/-- DECOMPOSE(vaddr): reads the three widths and nothing else; it cannot fail (R100). -/
def decompose (g : Geometry) (vaddr : Nat) : Transaction :=
  finish (.decomposed (splitAddress g vaddr))

/-- The meaning of DECOMPOSE (R100). -/
def execDecompose (vaddr : Nat) (s : State) : Host.Outcome State Fault Refusal :=
  complete s (decompose s.geom vaddr)

end Sys2Proof.Machine
end

