-- ==== Sys2Proof/Machine/EntryDecoder.lean ====
section
/-! DEFINITION. DECODE_ENTRY, the page-table-entry decoder (R110 to R112). -/

namespace Sys2Proof.Machine

/-- DECODE_ENTRY(byte): reads no constant and no memory; it cannot fail and does not classify (R110). -/
def entryOf (arg : Nat) : Transaction :=
  finish (.decodedEntry (splitEntry arg))

/-- The meaning of DECODE_ENTRY (R110). -/
def execDecodeEntry (arg : Nat) (s : State) : Host.Outcome State Fault Refusal :=
  complete s (entryOf arg)

end Sys2Proof.Machine
end

