-- ==== Sys2Proof/Machine/Reserved.lean ====
section
/-! DEFINITION. The reserved operation code `op = 11` (R78, R154). -/

namespace Sys2Proof.Machine

/-- The answer to the reserved code: status ILLEGAL_OP, no read, no other field (R78). -/
def illegal : Transaction := finish .illegalOp

/-- The meaning of the reserved code (R78): a result like any other, after which the next request is
accepted (R159). The argument is ignored (R86). -/
def execReserved (_arg : Nat) (s : State) : Host.Outcome State Fault Refusal :=
  complete s illegal

end Sys2Proof.Machine
end

