-- ==== Sys2Proof/Machine/Walk.lean ====
section
/-! DEFINITION. TRANSLATE, the two-level table walk (R120 to R136). -/

namespace Sys2Proof.Machine

/-- The last part of a walk, step 6 and step 7 (R129 to R132): the sentinel test comes first and reads nothing;
then the valid bit chooses the image the byte is read from. -/
def resolve (mem disk : Memory) (path : TranslationPath) (pte : Entry) (addr : Nat) : Transaction :=
  if pte.frame = sentinel then
    finish (.tableFault path)
  else if pte.valid = false then
    readByte .disk disk addr .dataDisk path fun value => finish (.resolved .disk path value)
  else
    readByte .mem mem addr .dataMem path fun value => finish (.resolved .memory path value)

/-- The table lookup, step 4 and step 5 (R124, R128). The table is always read from MEM. -/
def lookupTable (g : Geometry) (mem disk : Memory) (path : TranslationPath) (pde : Entry) : Transaction :=
  readByte .mem mem (pteAddr g pde path.fields) .pte path fun byte =>
    let pte := splitEntry byte.toNat
    let addr := finalAddress g pte path.fields
    resolve mem disk (path.withPte pte addr) pte addr

/-- The directory lookup, step 2 and step 3 (R123): only the valid bit is tested. -/
def lookupDirectory (g : Geometry) (mem disk : Memory) (path : TranslationPath) : Transaction :=
  readByte .mem mem (pdeAddr g path.fields) .pde path fun byte =>
    let pde := splitEntry byte.toNat
    if pde.valid = false then
      finish (.directoryFault (path.withPde pde))
    else
      lookupTable g mem disk (path.withPde pde) pde

/-- TRANSLATE(vaddr): the whole algorithm (R121), a function of the geometry, the two images and the
address alone (R19, R26). -/
def walk (g : Geometry) (mem disk : Memory) (vaddr : Nat) : Transaction :=
  lookupDirectory g mem disk (TranslationPath.start (splitAddress g vaddr))

/-- The meaning of TRANSLATE (R120). -/
def execTranslate (vaddr : Nat) (s : State) : Host.Outcome State Fault Refusal :=
  complete s (walk s.geom s.mem s.disk vaddr)

end Sys2Proof.Machine
end

