-- ==== Sys2Proof/Machine/Dispatch.lean ====
section
/-! DEFINITION. One arm per operation of the table. -/

namespace Sys2Proof.Machine

/-- What performing an operation does to a state (R77, R78). -/
def exec (i : Instr) (s : State) : Host.Outcome State Fault Refusal :=
  match i with
  | .translate vaddr => Sys2Proof.Machine.execTranslate vaddr s
  | .decompose vaddr => Sys2Proof.Machine.execDecompose vaddr s
  | .decodeEntry arg => Sys2Proof.Machine.execDecodeEntry arg s
  | .reserved arg => Sys2Proof.Machine.execReserved arg s

end Sys2Proof.Machine
end

