-- ==== Sys2Proof/Machine/Step.lean ====
section
/-! DEFINITION. One step: one request, one atomic operation, one result (R21, R27). -/

namespace Sys2Proof.Machine

/-- One step. An illegal instance has no behaviour (R9). With no request the block rests in its idle
condition (R160, R180; assumption 4). Otherwise the first pending request is performed (R27). -/
def step (s : State) : Host.Outcome State Fault Refusal :=
  if s.legal = true then
    match s.fetch with
    | none => .next s
    | some (i, s') => exec i s'
  else
    .refused .illegalInstance

/-- The state with the request of a table word (R79) placed as the next one to be performed; a number that
is no request word places nothing. -/
def State.withFetchWord (s : State) (_nbits w : Nat) : State :=
  match Request.ofWord Config.referenceVin w with
  | .ok r => s.withRequest r
  | .error _ => s

end Sys2Proof.Machine
end

