-- ==== Sys2Proof/Machine/Text.lean ====
section
/-! DEFINITION. The textual form of requests (R88): one request a line, a mnemonic and a hexadecimal argument. -/

namespace Sys2Proof.Machine

/-- The digits in which an argument is written, each at the place of its value (R88). -/
def hexDigits : List Char := "0123456789ABCDEF".toList

/-- The value of a digit: its place among the digits. The small letters are read as the capitals (assumption 12). -/
def hexDigit (c : Char) : Option Nat := hexDigits.findIdx? fun d => d == c.toUpper

/-- The number a word of digits writes, most significant first; a word with any other character writes none. -/
def hexValue (word : List Char) : Option Nat :=
  (word.mapM hexDigit).map fun values => values.foldl (fun n v => concat n 4 v) 0

/-- An argument: the prefix `0x` and at least one digit (R88). -/
def hexArg : List Char → Option Nat
  | '0' :: 'x' :: word => if word.isEmpty then none else hexValue word
  | _ => none

/-- The text before a comment: `;` and what follows it are left out. -/
def uncomment : List Char → List Char
  | [] => []
  | c :: rest => if c = ';' then [] else c :: uncomment rest

/-- Adds a character to the word being read. -/
def growWord (c : Char) : List (List Char) → List (List Char)
  | [] => [[c]]
  | w :: ws => (c :: w) :: ws

/-- The words of a line, with an empty word at its head when the line begins with a space. -/
def rawWords : List Char → List (List Char)
  | [] => [[]]
  | c :: rest => if c = ' ' ∨ c = '\t' then [] :: rawWords rest else growWord c (rawWords rest)

/-- The words of a line. -/
def lineWords (line : List Char) : List (List Char) :=
  (rawWords (uncomment line)).filter fun w => !w.isEmpty

/-- The operation code a mnemonic names (R77, R88). The reserved code has no mnemonic. -/
def mnemonicOp (m : List Char) : Option OpCode :=
  if m = "TRANSLATE".toList then some 0b00#2
  else if m = "DECOMPOSE".toList then some 0b01#2
  else if m = "DECODE_ENTRY".toList then some 0b10#2
  else none

/-- The request a line writes, or `none` where it writes none (R88). -/
def parseLine (line : List Char) : Option Request :=
  match lineWords line with
  | [m, a] =>
    match mnemonicOp m, hexArg a with
    | some op, some arg => some { op := op, arg := arg }
    | _, _ => none
  | _ => none

/-- The program that lines write, top to bottom; a line with no word on it writes nothing (R88). -/
def parseProgram : List (List Char) → Option (List Request)
  | [] => some []
  | line :: rest =>
    if (lineWords line).isEmpty then parseProgram rest
    else
      match parseLine line, parseProgram rest with
      | some r, some rs => some (r :: rs)
      | _, _ => none

/-- The program of the document's command line with addresses `a1 a2 ...` (R88). -/
def commandLine (addresses : List Nat) : List Request :=
  addresses.map fun a => encode (.translate a)

end Sys2Proof.Machine
end

