-- ==== Sys2Proof/Machine/Flags.lean ====
section
/-! DEFINITION. The block has no flags and no condition codes (R28). What takes their place is in the result:
the status and site codes (R82, R84), the fields of a result and their presence (R80, R81, R85), and the
numbers a port drives (R83). -/

namespace Sys2Proof.Machine

/-- The status names of R82. There is no seventh code's name: status 7 is never produced. -/
inductive Status where
  | ok
  | resolvedMemory
  | resolvedDisk
  | directoryFault
  | tableFault
  | outOfRange
  | illegalOp
deriving DecidableEq, Repr

/-- The status of a result (R82). -/
def Result.status : Result → Status
  | .decomposed _ => .ok
  | .decodedEntry _ => .ok
  | .resolved .memory _ _ => .resolvedMemory
  | .resolved .disk _ _ => .resolvedDisk
  | .directoryFault _ => .directoryFault
  | .tableFault _ => .tableFault
  | .outOfRange _ _ _ => .outOfRange
  | .illegalOp => .illegalOp

/-- The 3-bit status codes (R82, R150). -/
def Status.code : Status → BitVec 3
  | .ok => 0
  | .resolvedMemory => 1
  | .resolvedDisk => 2
  | .directoryFault => 3
  | .tableFault => 4
  | .outOfRange => 5
  | .illegalOp => 6

/-- The 2-bit site codes (R84). -/
def Site.code : Site → BitVec 2
  | .pde => 0
  | .pte => 1
  | .dataMem => 2
  | .dataDisk => 3

/-- The translation path a result carries: every TRANSLATE result has one (R122). -/
def Result.path : Result → Option TranslationPath
  | .decomposed _ => none
  | .decodedEntry _ => none
  | .resolved _ p _ => some p
  | .directoryFault p => some p
  | .tableFault p => some p
  | .outOfRange _ _ p => some p
  | .illegalOp => none

/-- The index fields a result carries (R80, R85). -/
def Result.fields : Result → Option Fields
  | .decomposed f => some f
  | r => r.path.map TranslationPath.fields

/-- The resolved byte (R80). -/
def Result.value : Result → Option Byte
  | .resolved _ _ v => some v
  | _ => none

/-- The failing read and its address (R84). -/
def Result.oor : Result → Option (Site × Nat)
  | .outOfRange site addr _ => some (site, addr)
  | _ => none

/-- Every field a result of the block can have (R80, R85), each `none` when absent (R83). -/
structure Record where
  status : Status
  dirIndex : Option Nat
  tblIndex : Option Nat
  offset : Option Nat
  pdeValid : Option Bool
  pdeFrame : Option Frame
  pteValid : Option Bool
  pteFrame : Option Frame
  finalAddr : Option Nat
  value : Option Byte
  oorSite : Option Site
  oorAddr : Option Nat
  /-- `valid` of DECODE_ENTRY (R85). -/
  valid : Option Bool
  /-- `frame` of DECODE_ENTRY (R85). -/
  frame : Option Frame
deriving DecidableEq, Repr

/-- The decoded pair that DECODE_ENTRY returns (R85). -/
def Result.entry : Result → Option Entry
  | .decodedEntry e => some e
  | _ => none

/-- The fields of a result (R80, R85). -/
def Result.record (r : Result) : Record :=
  { status := r.status
    dirIndex := r.fields.map Fields.dirIndex
    tblIndex := r.fields.map Fields.tblIndex
    offset := r.fields.map Fields.offset
    pdeValid := (r.path.bind TranslationPath.pde).map Entry.valid
    pdeFrame := (r.path.bind TranslationPath.pde).map Entry.frame
    pteValid := (r.path.bind TranslationPath.pte).map Entry.valid
    pteFrame := (r.path.bind TranslationPath.pte).map Entry.frame
    finalAddr := r.path.bind TranslationPath.finalAddr
    value := r.value
    oorSite := r.oor.map Prod.fst
    oorAddr := r.oor.map Prod.snd
    valid := r.entry.map Entry.valid
    frame := r.entry.map Entry.frame }

/-- The unsigned numbers a result port carries (R80): an absent field is driven to zero, and the consumer
uses the status and the site to know which fields to read (R83). -/
structure PortRecord where
  status : Nat
  dirIndex : Nat
  tblIndex : Nat
  offset : Nat
  pdeValid : Nat
  pdeFrame : Nat
  pteValid : Nat
  pteFrame : Nat
  finalAddr : Nat
  value : Nat
  oorSite : Nat
  oorAddr : Nat
  valid : Nat
  frame : Nat
deriving DecidableEq, Repr

/-- One field on the port: its number, or zero when it is absent (R83). -/
def driven {α : Type} (number : α → Nat) : Option α → Nat
  | none => 0
  | some x => number x

/-- The port view of a result's fields (R83). -/
def Record.port (r : Record) : PortRecord :=
  { status := r.status.code.toNat
    dirIndex := driven id r.dirIndex
    tblIndex := driven id r.tblIndex
    offset := driven id r.offset
    pdeValid := driven Bool.toNat r.pdeValid
    pdeFrame := driven BitVec.toNat r.pdeFrame
    pteValid := driven Bool.toNat r.pteValid
    pteFrame := driven BitVec.toNat r.pteFrame
    finalAddr := driven id r.finalAddr
    value := driven BitVec.toNat r.value
    oorSite := driven (fun s => s.code.toNat) r.oorSite
    oorAddr := driven id r.oorAddr
    valid := driven Bool.toNat r.valid
    frame := driven BitVec.toNat r.frame }

end Sys2Proof.Machine
end

