-- ==== Sys2Proof/Safety.lean ====
section
/-! DEFINITION. What a good state and a truthful result are, and what a safe step is. -/

namespace Sys2Proof.Machine

/-- The operations as functions of (geometry, memory image, backing-store image, request), the shape R26 gives
a model's step: what `exec` performs, with the reads it makes. -/
def perform (g : Geometry) (mem disk : Memory) : Instr → Transaction
  | .translate v => walk g mem disk v
  | .decompose v => decompose g v
  | .decodeEntry a => entryOf a
  | .reserved _ => illegal

/-- Each index field fits its width (R102). -/
def Fields.fit (g : Geometry) (f : Fields) : Prop :=
  f.dirIndex < 2 ^ g.dw ∧ f.tblIndex < 2 ^ g.tw ∧ f.offset < 2 ^ g.ow

/-- The path tells the directory entry that its index names, and nothing further. -/
def TranslationPath.atDirectory (g : Geometry) (mem : Memory) (p : TranslationPath) (pde : Entry) : Prop :=
  p.fields.fit g ∧ p.pde = some pde ∧ mem.readEntry (pdeAddr g p.fields) = some pde

/-- The path tells a valid directory entry, the table entry that this entry and the index name, and the
final address that they give (R124, R128). -/
def TranslationPath.atTable (g : Geometry) (mem : Memory) (p : TranslationPath) (pde pte : Entry) (a : Nat) : Prop :=
  p.atDirectory g mem pde ∧ pde.valid = true ∧ p.pte = some pte ∧
    mem.readEntry (pteAddr g pde p.fields) = some pte ∧
    p.finalAddr = some a ∧ a = finalAddress g pte p.fields

/-- The result is what the images say: each thing it reports can be read again at the place that the rest of it
names, and its outcome is the one those bytes call for (R121, R150). -/
def Result.truthful (g : Geometry) (mem disk : Memory) : Result → Prop
  | .decomposed f => f.fit g
  | .decodedEntry _ => True
  | .resolved .memory p v => ∃ pde pte a,
      p.atTable g mem pde pte a ∧ pte.frame ≠ sentinel ∧ pte.valid = true ∧ mem.read a = some v
  | .resolved .disk p v => ∃ pde pte a,
      p.atTable g mem pde pte a ∧ pte.frame ≠ sentinel ∧ pte.valid = false ∧ disk.read a = some v
  | .directoryFault p => ∃ pde,
      p.atDirectory g mem pde ∧ pde.valid = false ∧ p.pte = none ∧ p.finalAddr = none
  | .tableFault p => ∃ pde pte a, p.atTable g mem pde pte a ∧ pte.frame = sentinel
  | .outOfRange .pde a p =>
      p.fields.fit g ∧ p.pde = none ∧ p.pte = none ∧ p.finalAddr = none ∧
        a = pdeAddr g p.fields ∧ mem.size ≤ a
  | .outOfRange .pte a p => ∃ pde,
      p.atDirectory g mem pde ∧ pde.valid = true ∧ p.pte = none ∧ p.finalAddr = none ∧
        a = pteAddr g pde p.fields ∧ mem.size ≤ a
  | .outOfRange .dataMem a p => ∃ pde pte,
      p.atTable g mem pde pte a ∧ pte.frame ≠ sentinel ∧ pte.valid = true ∧ mem.size ≤ a
  | .outOfRange .dataDisk a p => ∃ pde pte,
      p.atTable g mem pde pte a ∧ pte.frame ≠ sentinel ∧ pte.valid = false ∧ disk.size ≤ a
  | .illegalOp => True

/-- The invariant of a run: a legal instance (R9, R11), both images canonical, every request one that the port can
carry (R75), every delivered result truthful about the images that the instance still holds (R26, R121). -/
structure State.Inv (s : State) : Prop where
  legal : s.legal = true
  memWf : s.mem.wf = true
  diskWf : s.disk.wf = true
  fits : ∀ r ∈ s.pending, r.fits s.vin = true
  truthful : ∀ r ∈ s.results, r.truthful s.geom s.mem s.disk

/-- Steps taken one after another, stopping at the first that does not go on; the host's own run of the machine, on
`State` by name. -/
def runSteps : Nat → State → Host.Outcome State Fault Refusal
  | 0, s => .next s
  | k + 1, s =>
    match step s with
    | .next s' => runSteps k s'
    | .fault r => .fault r
    | .refused r => .refused r

/-- A step is safe when it goes on: no fault, no refusal. -/
def State.goesOn (s : State) : Prop := ∃ s', step s = .next s'

end Sys2Proof.Machine
end

