-- ==== Sys2Proof/Certificates/Slice0/Obligations.lean ====
section
/-! DEFINITION. The statements about the model, and the arithmetic reading of the spec's formulas they are written in. -/

namespace Sys2Proof.Spec
open Sys2Proof.Machine

/-- The fields of a virtual address as slices, by quotient and remainder (R70, R100). -/
def fields (g : Geometry) (v : Nat) : Fields :=
  { dirIndex := v / 2 ^ (g.tw + g.ow) % 2 ^ g.dw
    tblIndex := v / 2 ^ g.ow % 2 ^ g.tw
    offset := v % 2 ^ g.ow }

/-- The entry in a byte: bit 7 and bits 6 to 0 (R72). -/
def entry (b : Byte) : Entry := { valid := b.getLsbD 7, frame := b.extractLsb' 0 7 }

/-- `PDBR + dirIndex` (R123). -/
def pdeAddr (g : Geometry) (v : Nat) : Nat := g.pdbr + (fields g v).dirIndex

/-- `(pdeFrame << TW) + tblIndex` for the directory entry `P` (R124). -/
def pteAddr (g : Geometry) (P : Byte) (v : Nat) : Nat := P.toNat % 128 * 2 ^ g.tw + (fields g v).tblIndex

/-- `(pteFrame << OW) + offset` for the table entry `Q` (R128). -/
def finalAddr (g : Geometry) (Q : Byte) (v : Nat) : Nat := Q.toNat % 128 * 2 ^ g.ow + (fields g v).offset

/-- The path of a walk that read nothing. -/
def path0 (g : Geometry) (v : Nat) : TranslationPath :=
  { fields := fields g v, pde := none, pte := none, finalAddr := none }

/-- The path of a walk that read the directory entry `P`. -/
def path1 (g : Geometry) (v : Nat) (P : Byte) : TranslationPath :=
  { fields := fields g v, pde := some (entry P), pte := none, finalAddr := none }

/-- The path of a walk that read the directory entry `P` and the table entry `Q`. -/
def path2 (g : Geometry) (v : Nat) (P Q : Byte) : TranslationPath :=
  { fields := fields g v, pde := some (entry P), pte := some (entry Q), finalAddr := some (finalAddr g Q v) }

/-- The algorithm of R121 on image contents, in quotients, remainders and byte comparisons. -/
def walkResult (g : Geometry) (mem disk : Memory) (v : Nat) : Result :=
  match mem.read (pdeAddr g v) with
  | none => .outOfRange .pde (pdeAddr g v) (path0 g v)
  | some P =>
    if P.toNat < 128 then .directoryFault (path1 g v P)
    else
      match mem.read (pteAddr g P v) with
      | none => .outOfRange .pte (pteAddr g P v) (path1 g v P)
      | some Q =>
        if Q.toNat % 128 = 127 then .tableFault (path2 g v P Q)
        else if Q.toNat < 128 then
          match disk.read (finalAddr g Q v) with
          | none => .outOfRange .dataDisk (finalAddr g Q v) (path2 g v P Q)
          | some b => .resolved .disk (path2 g v P Q) b
        else
          match mem.read (finalAddr g Q v) with
          | none => .outOfRange .dataMem (finalAddr g Q v) (path2 g v P Q)
          | some b => .resolved .memory (path2 g v P Q) b

/-- The successful reads of that algorithm, in order (R45). -/
def walkReads (g : Geometry) (mem disk : Memory) (v : Nat) : List Access :=
  match mem.read (pdeAddr g v) with
  | none => []
  | some P =>
    ⟨.mem, pdeAddr g v⟩ ::
      (if P.toNat < 128 then []
       else
         match mem.read (pteAddr g P v) with
         | none => []
         | some Q =>
           ⟨.mem, pteAddr g P v⟩ ::
             (if Q.toNat % 128 = 127 then []
              else if Q.toNat < 128 then
                if finalAddr g Q v < disk.size then [⟨.disk, finalAddr g Q v⟩] else []
              else
                if finalAddr g Q v < mem.size then [⟨.mem, finalAddr g Q v⟩] else []))

/-- How many of some reads are from one space. -/
def countIn (space : Space) (reads : List Access) : Nat := (reads.filter fun a => a.space == space).length

/-- The table of R190: MEM reads and DISK reads by outcome. -/
def readCounts : Status → Option Site → Nat × Nat
  | .ok, _ => (0, 0)
  | .illegalOp, _ => (0, 0)
  | .outOfRange, some .pde => (0, 0)
  | .directoryFault, _ => (1, 0)
  | .outOfRange, some .pte => (1, 0)
  | .tableFault, _ => (2, 0)
  | .outOfRange, _ => (2, 0)
  | .resolvedMemory, _ => (3, 0)
  | .resolvedDisk, _ => (2, 1)

/-- The table of R81: presence of the PDE fields, of the PTE fields and the final address, of the value, of the
out-of-range detail. -/
def presence : Status → Option Site → Bool × Bool × Bool × Bool
  | .outOfRange, some .pde => (false, false, false, true)
  | .directoryFault, _ => (true, false, false, false)
  | .outOfRange, some .pte => (true, false, false, true)
  | .tableFault, _ => (true, true, false, false)
  | .outOfRange, _ => (true, true, false, true)
  | .resolvedMemory, _ => (true, true, true, false)
  | .resolvedDisk, _ => (true, true, true, false)
  | .ok, _ => (false, false, false, false)
  | .illegalOp, _ => (false, false, false, false)

/-- The images have at least their nominal sizes (R49). -/
def nominal (g : Geometry) (mem disk : Memory) : Prop :=
  max (2 ^ g.paw) (max (2 ^ g.ptaw) (g.pdbr + g.ndir)) ≤ mem.size ∧ 2 ^ g.paw ≤ disk.size

/-- The state with one more result delivered and all else as it was. -/
def answered (s : State) (r : Result) : State := { s with results := s.results ++ [r] }

end Sys2Proof.Spec

open Sys2Proof Sys2Proof.Machine

/-! ### Encoding -/

/-- R75, R77, R79: no bit of a request is dropped, at any port width. -/
def Obligations.DecodeEncodeRoundTrip : Prop :=
  ∀ (vin : Nat) (i : Instr), i.wf vin = true →
    encodeWord vin i < 2 ^ (vin + 2) ∧ decodeWord vin (encodeWord vin i) = .ok i

/-- R78, R79, R87: every word of the one request length selects exactly one operation, which encodes to that
word, and every other number is rejected by name. -/
def Obligations.EveryRequestWordHasOneMeaning : Prop :=
  ∀ (vin w : Nat),
    (w < 2 ^ (vin + 2) → ∃ i, i.wf vin = true ∧ decodeWord vin w = .ok i ∧ encodeWord vin i = w ∧
      ∀ j : Instr, j.wf vin = true → encodeWord vin j = w → j = i) ∧
    (2 ^ (vin + 2) ≤ w → decodeWord vin w = .error (.wordTooWide w))

/-- R79: its example words, and words of the other vectors with the reserved code. -/
def Obligations.ExampleRequestWordsDecode : Prop :=
  decodeWord 16 0x06C74 = .ok (.translate 0x6C74) ∧
  decodeWord 16 0x16C74 = .ok (.decompose 0x6C74) ∧
  decodeWord 16 0x20085 = .ok (.decodeEntry 0x85) ∧
  decodeWord 16 0x30000 = .ok (.reserved 0) ∧
  decodeWord 16 0x3FFFF = .ok (.reserved 0xFFFF) ∧
  decodeWord 16 0x2FFFF = .ok (.decodeEntry 0xFFFF)

/-- R88: the three lines the rule writes, a comment, and the command line's correspondence. The two letter
cases and the spacing a line may have are the model's choice (assumption 12). -/
def Obligations.RequestTextIsRead : Prop :=
  parseLine "TRANSLATE 0x6C74".toList = some { op := 0b00#2, arg := 0x6C74 } ∧
  parseLine "DECOMPOSE 0x0400 ; first".toList = some { op := 0b01#2, arg := 0x400 } ∧
  parseLine "DECODE_ENTRY 0x85".toList = some { op := 0b10#2, arg := 0x85 } ∧
  parseProgram ["TRANSLATE 0x0".toList, "; only a comment".toList, "DECOMPOSE 0x1F".toList] =
    some [{ op := 0b00#2, arg := 0 }, { op := 0b01#2, arg := 0x1F }] ∧
  commandLine [0x0, 0x3F] = [{ op := 0b00#2, arg := 0 }, { op := 0b00#2, arg := 0x3F }]

/-! ### The step -/

/-- R27, R75: a step of a legal instance performs the operation that the first pending request decodes to, on the
state with that request taken off the queue; with none pending it rests (assumption 4). -/
def Obligations.StepPerformsTheFirstPendingRequest : Prop :=
  ∀ (s : State), s.legal = true →
    (∀ (r : Request) (rest : List Request) (i : Instr), s.pending = r :: rest → decode r = i →
      step s = exec i { s with pending := rest }) ∧
    (s.pending = [] → step s = .next s)

/-- R9, R11: which instances can be constructed, and that no other has a behaviour. -/
def Obligations.IllegalInstanceIsRefused : Prop :=
  (∀ (g : Geometry) (vin : Nat) (m d : List Byte),
    (State.launch g vin m d).isSome = true ↔
      (1 ≤ g.dw ∧ 1 ≤ g.tw ∧ 1 ≤ g.ow ∧ g.sw = g.ow ∧ 2 ^ g.ow ∣ g.pdbr ∧ g.dw + g.tw + g.ow ≤ vin ∧ 8 ≤ vin)) ∧
  (∀ s : State, s.legal = false → step s = .refused .illegalInstance)

/-- R133, R191: a legal instance always goes on; each step with a request pending takes one request and delivers
one result, and an idle step changes nothing (assumption 4). -/
def Obligations.LegalInstanceAlwaysGoesOn : Prop :=
  ∀ (s : State), s.legal = true → ∃ s', step s = .next s' ∧ s'.legal = true ∧
    ((s.pending = [] ∧ s' = s) ∨
     (s'.pending.length + 1 = s.pending.length ∧ s'.results.length = s.results.length + 1))

/-- R26: no operation changes a constant or an image, whatever the outcome; every address of both images reads
after as it read before; what is added is the one result. -/
def Obligations.OperationsChangeNoState : Prop :=
  ∀ (i : Instr) (s s' : State), exec i s = .next s' →
    s'.geom = s.geom ∧ s'.vin = s.vin ∧ s'.mem = s.mem ∧ s'.disk = s.disk ∧
    (∀ a, s'.mem.read a = s.mem.read a) ∧ (∀ a, s'.disk.read a = s.disk.read a) ∧
    s'.pending = s.pending ∧ ∃ r, s'.results = s.results ++ [r]

/-- R19, R185: the result of a request is a function of the geometry, the two images and the request; what else
is pending and what was delivered before play no part. -/
def Obligations.ResultDependsOnInstanceAndRequestOnly : Prop :=
  ∀ (i : Instr) (s₁ s₂ : State), s₁.geom = s₂.geom → s₁.mem = s₂.mem → s₁.disk = s₂.disk →
    ∃ r, exec i s₁ = .next (Spec.answered s₁ r) ∧ exec i s₂ = .next (Spec.answered s₂ r)

/-- R192: a run of all pending requests ends with one result per request, in request order, each the result that
request has on the launch state, and with the constants and images of the launch state. The lists `pending` and `results`
are the model's own (assumption 1). -/
def Obligations.RunDeliversOneResultPerRequest : Prop :=
  ∀ (s : State), s.legal = true → ∃ rs : List Result,
    runSteps s.pending.length s =
      .next { s with pending := [], results := s.results ++ rs } ∧
    rs.length = s.pending.length ∧
    ∀ (k : Nat) (r : Request) (q : Result), s.pending[k]? = some r → rs[k]? = some q →
      exec (decode r) s = .next (Spec.answered s q)

/-! ### DECOMPOSE -/

/-- R100: the code, the formulas in slice form, the status, no other field, no read, and the worked example. -/
def Obligations.DecomposeReturnsTheThreeFields : Prop :=
  (∀ v, decode { op := 0b01#2, arg := v } = .decompose v) ∧
  (∀ (s : State) (v : Nat),
    exec (.decompose v) s = .next (Spec.answered s (.decomposed (Spec.fields s.geom v)))) ∧
  (∀ (g : Geometry) (mem disk : Memory) (v : Nat),
    (perform g mem disk (.decompose v)).reads = [] ∧ (perform g mem disk (.decompose v)).result.status = .ok) ∧
  Spec.fields Geometry.reference 0x6C74 = { dirIndex := 0x1B, tblIndex := 3, offset := 20 }

/-- R101: the fields give back the address masked to `VAW` bits, and every triple in range is the split of the
address it makes; `|` may be read as `+`. -/
def Obligations.DecomposeRoundTrips : Prop :=
  (∀ (g : Geometry) (v : Nat),
    let f := splitAddress g v
    (f.dirIndex <<< (g.tw + g.ow)) ||| (f.tblIndex <<< g.ow) ||| f.offset = v &&& mask g.vaw ∧
    (f.dirIndex <<< (g.tw + g.ow)) + (f.tblIndex <<< g.ow) + f.offset = v &&& mask g.vaw) ∧
  (∀ (g : Geometry) (d t o : Nat), d < 2 ^ g.dw → t < 2 ^ g.tw → o < 2 ^ g.ow →
    splitAddress g ((d <<< (g.tw + g.ow)) ||| (t <<< g.ow) ||| o) =
      { dirIndex := d, tblIndex := t, offset := o })

/-- R102: the ranges of the three fields, for every input. -/
def Obligations.FieldsStayInRange : Prop :=
  (∀ (g : Geometry) (v : Nat),
    (splitAddress g v).dirIndex ≤ 2 ^ g.dw - 1 ∧ (splitAddress g v).tblIndex ≤ 2 ^ g.tw - 1 ∧
    (splitAddress g v).offset ≤ 2 ^ g.ow - 1) ∧
  (∀ v : Nat,
    (splitAddress Geometry.reference v).dirIndex ≤ 31 ∧ (splitAddress Geometry.reference v).tblIndex ≤ 31 ∧
    (splitAddress Geometry.reference v).offset ≤ 31)

/-- R103: the corner-case table, the unequal widths, the inputs no port can carry, and that neither the images nor
`PDBR` matter. -/
def Obligations.DecomposeCornerCases : Prop :=
  [0x0000, 0x7FFF, 0x8000, 0xFFFF, 0x0400, 0x0020, 0x001F, 0x03FF, 0x6C74].map (splitAddress Geometry.reference) =
    [⟨0, 0, 0⟩, ⟨31, 31, 31⟩, ⟨0, 0, 0⟩, ⟨31, 31, 31⟩, ⟨1, 0, 0⟩, ⟨0, 1, 0⟩, ⟨0, 0, 31⟩, ⟨0, 31, 31⟩, ⟨27, 3, 20⟩] ∧
  [0x19, 0x1FF].map (splitAddress { dw := 2, tw := 3, ow := 4, sw := 4, pdbr := 0x40 }) =
    [⟨0, 1, 9⟩, ⟨3, 7, 15⟩] ∧
  (∀ v, 2 ^ 16 ≤ v → splitAddress Geometry.reference v = splitAddress Geometry.reference (v % 2 ^ 15)) ∧
  (∀ (g g' : Geometry) (mem disk mem' disk' : Memory) (v : Nat), g'.dw = g.dw → g'.tw = g.tw → g'.ow = g.ow →
    (perform g' mem' disk' (.decompose v)).result = (perform g mem disk (.decompose v)).result)

/-! ### DECODE_ENTRY -/

/-- R110: the code, the two fields of the low byte, the status, no read, no classification, the worked example. -/
def Obligations.DecodeEntryReturnsValidAndFrame : Prop :=
  (∀ a, decode { op := 0b10#2, arg := a } = .decodeEntry a) ∧
  (∀ (s : State) (a : Nat), ∃ e : Entry,
    exec (.decodeEntry a) s = .next (Spec.answered s (.decodedEntry e)) ∧
    (e.valid = true ↔ a / 2 ^ 7 % 2 = 1) ∧ e.frame.toNat = a % 2 ^ 7 ∧
    e = Spec.entry (BitVec.ofNat 8 a)) ∧
  (∀ (g : Geometry) (mem disk : Memory) (a : Nat),
    (perform g mem disk (.decodeEntry a)).reads = [] ∧ (perform g mem disk (.decodeEntry a)).result.status = .ok) ∧
  splitEntry 0x85 = { valid := true, frame := 5#7 }

/-- R111: decoding a byte is injective, and a bijection onto the 256 pairs with the inverse it names. -/
def Obligations.EntryDecodingIsABijection : Prop :=
  (∀ (b : Byte), b.toNat = ((splitEntry b.toNat).valid.toNat <<< 7) ||| (splitEntry b.toNat).frame.toNat) ∧
  (∀ (b : Byte), joinEntry (splitEntry b.toNat) = b) ∧
  (∀ (e : Entry), splitEntry (joinEntry e).toNat = e)

/-- R112: the corner-case table, and that bits 8 and up are ignored. -/
def Obligations.DecodeEntryCornerCases : Prop :=
  [0x00, 0x03, 0x7E, 0x7F, 0x80, 0x85, 0xFE, 0xFF, 0x185].map splitEntry =
    [⟨false, 0⟩, ⟨false, 3⟩, ⟨false, 126⟩, ⟨false, 127⟩, ⟨true, 0⟩, ⟨true, 5⟩, ⟨true, 126⟩, ⟨true, 127⟩, ⟨true, 5⟩] ∧
  (∀ n : Nat, splitEntry n = splitEntry (n % 2 ^ 8))

/-! ### TRANSLATE -/

/-- R121: the whole algorithm. TRANSLATE completes on every state and every address with the result that the
algorithm gives in quotients, remainders and byte comparisons. -/
def Obligations.TranslateFollowsTheAlgorithm : Prop :=
  ∀ (s : State) (v : Nat),
    exec (.translate v) s = .next (Spec.answered s (Spec.walkResult s.geom s.mem s.disk v))

/-- R123: the directory lookup, for every byte `P` there: only its valid bit is tested. -/
def Obligations.DirectoryLookupTestsTheValidBitOnly : Prop :=
  ∀ (s : State) (v : Nat),
    let f := splitAddress s.geom v
    let a := s.geom.pdbr + f.dirIndex
    (s.mem.size ≤ a →
      exec (.translate v) s = .next (Spec.answered s
        (.outOfRange .pde a { fields := f, pde := none, pte := none, finalAddr := none }))) ∧
    (∀ P : Byte, s.mem.read a = some P → P.getLsbD 7 = false →
      exec (.translate v) s = .next (Spec.answered s
        (.directoryFault { fields := f, pde := some (splitEntry P.toNat), pte := none, finalAddr := none }))) ∧
    (∀ P : Byte, s.mem.read a = some P → P.getLsbD 7 = true → ∃ r p,
      exec (.translate v) s = .next (Spec.answered s r) ∧ r.path = some p ∧ p.fields = f ∧
      p.pde = some (splitEntry P.toNat) ∧ r.status ≠ .directoryFault ∧
      (p.pte = none → r.status = .outOfRange))

/-- R124: the table lookup. Its address, a concatenation, and its range; out of range; otherwise the entry is the one MEM holds there,
whatever DISK holds. -/
def Obligations.TableLookupReadsMemory : Prop :=
  ∀ (s : State) (v : Nat) (P : Byte),
    let f := splitAddress s.geom v
    let pde := splitEntry P.toNat
    let a := (pde.frame.toNat <<< s.geom.tw) + f.tblIndex
    a = (pde.frame.toNat <<< s.geom.tw) ||| f.tblIndex ∧ a ≤ 2 ^ (7 + s.geom.tw) - 1 ∧
    (s.mem.read (s.geom.pdbr + f.dirIndex) = some P → P.getLsbD 7 = true →
      (s.mem.size ≤ a →
        exec (.translate v) s = .next (Spec.answered s
          (.outOfRange .pte a { fields := f, pde := some pde, pte := none, finalAddr := none }))) ∧
      (∀ Q : Byte, s.mem.read a = some Q → ∃ r p,
        exec (.translate v) s = .next (Spec.answered s r) ∧ r.path = some p ∧ p.fields = f ∧
        p.pde = some pde ∧ p.pte = some (splitEntry Q.toNat)))

/-- R129: the sentinel gives TableFault for both bytes `0x7F` and `0xFF`, before the valid bit is tested; nothing
beyond the two entries is read, so the sizes of the images do not matter; `finalAddr` is present and there is
no value. -/
def Obligations.SentinelGivesTableFault : Prop :=
  ∀ (s : State) (v : Nat) (P Q : Byte),
    let f := splitAddress s.geom v
    s.mem.read (s.geom.pdbr + f.dirIndex) = some P → P.getLsbD 7 = true →
    s.mem.read (((splitEntry P.toNat).frame.toNat <<< s.geom.tw) + f.tblIndex) = some Q →
    (Q = 0x7F#8 ∨ Q = 0xFF#8) →
    exec (.translate v) s = .next (Spec.answered s
      (.tableFault { fields := f, pde := some (splitEntry P.toNat), pte := some (splitEntry Q.toNat),
                     finalAddr := some ((0x7F <<< s.geom.ow) + f.offset) })) ∧
    (walk s.geom s.mem s.disk v).reads.length = 2

/-- R130: a page that is not resident is read from the backing store, and it is no fault. -/
def Obligations.NotResidentPageIsReadFromDisk : Prop :=
  ∀ (s : State) (v : Nat) (P Q : Byte),
    let f := splitAddress s.geom v
    let a := (Q.toNat <<< s.geom.ow) + f.offset
    let p : TranslationPath := { fields := f, pde := some (splitEntry P.toNat), pte := some (splitEntry Q.toNat), finalAddr := some a }
    s.mem.read (s.geom.pdbr + f.dirIndex) = some P → P.getLsbD 7 = true →
    s.mem.read (((splitEntry P.toNat).frame.toNat <<< s.geom.tw) + f.tblIndex) = some Q →
    Q.toNat < 0x7F →
    (s.disk.size ≤ a → exec (.translate v) s = .next (Spec.answered s (.outOfRange .dataDisk a p))) ∧
    (∀ b : Byte, s.disk.read a = some b → exec (.translate v) s = .next (Spec.answered s (.resolved .disk p b)))

/-- R131: a resident page is read from the memory image. -/
def Obligations.ResidentPageIsReadFromMemory : Prop :=
  ∀ (s : State) (v : Nat) (P Q : Byte),
    let f := splitAddress s.geom v
    let a := ((Q.toNat - 0x80) <<< s.geom.ow) + f.offset
    let p : TranslationPath := { fields := f, pde := some (splitEntry P.toNat), pte := some (splitEntry Q.toNat), finalAddr := some a }
    s.mem.read (s.geom.pdbr + f.dirIndex) = some P → P.getLsbD 7 = true →
    s.mem.read (((splitEntry P.toNat).frame.toNat <<< s.geom.tw) + f.tblIndex) = some Q →
    0x80 ≤ Q.toNat → Q.toNat < 0xFF →
    (s.mem.size ≤ a → exec (.translate v) s = .next (Spec.answered s (.outOfRange .dataMem a p))) ∧
    (∀ b : Byte, s.mem.read a = some b → exec (.translate v) s = .next (Spec.answered s (.resolved .memory p b)))

/-- R45: the reads of a walk, in order, each address from the byte before; at most three; their number by outcome,
in MEM and on DISK (R190), for all operations. -/
def Obligations.ReadsOfEachOutcome : Prop :=
  (∀ (g : Geometry) (mem disk : Memory) (v : Nat),
    (walk g mem disk v).reads = Spec.walkReads g mem disk v ∧ (walk g mem disk v).reads.length ≤ 3) ∧
  (∀ (g : Geometry) (mem disk : Memory) (i : Instr),
    let t := perform g mem disk i
    (Spec.countIn .mem t.reads, Spec.countIn .disk t.reads) = Spec.readCounts t.result.status t.result.record.oorSite)

/-- R71: addresses that agree in their low `VAW` bits are one address to TRANSLATE and to DECOMPOSE. -/
def Obligations.HighAddressBitsAreIgnored : Prop :=
  (∀ (s : State) (v w : Nat), v % 2 ^ s.geom.vaw = w % 2 ^ s.geom.vaw →
    exec (.translate v) s = exec (.translate w) s ∧ exec (.decompose v) s = exec (.decompose w) s) ∧
  (∀ (s : State) (v : Nat), s.geom = Geometry.reference →
    exec (.translate (0x8000 + v)) s = exec (.translate v) s)

/-- R49: images of at least their nominal sizes are never left, with the three bounds it gives as the reason and
the reference instance's numbers. -/
def Obligations.NominalImagesAreNeverOutOfRange : Prop :=
  (∀ (g : Geometry) (mem disk : Memory) (v : Nat), Spec.nominal g mem disk →
    (walk g mem disk v).result.status ≠ .outOfRange) ∧
  (∀ (g : Geometry) (v : Nat) (f : Frame),
    (splitAddress g v).dirIndex ≤ g.ndir - 1 ∧
    (f.toNat <<< g.tw) + (splitAddress g v).tblIndex ≤ 2 ^ g.ptaw - 1 ∧
    (f.toNat <<< g.ow) + (splitAddress g v).offset ≤ 2 ^ g.paw - 1) ∧
  (∀ (mem disk : Memory) (v : Nat), 4096 ≤ mem.size → 4096 ≤ disk.size →
    (walk Geometry.reference mem disk v).result.status ≠ .outOfRange) ∧
  Geometry.reference.pdbr + Geometry.reference.ndir = 0xDA0

/-- R51: no resolved byte comes from the sentinel's page of either image. -/
def Obligations.SentinelPageIsNeverData : Prop :=
  ∀ (g : Geometry) (mem disk : Memory) (v : Nat) (loc : Location) (p : TranslationPath) (b : Byte),
    (walk g mem disk v).result = .resolved loc p b →
    ∃ a, p.finalAddr = some a ∧ a < 0x7F <<< g.ow ∧
      (loc = .memory → mem.read a = some b) ∧ (loc = .disk → disk.read a = some b)

/-- R134: laws (a) to (g), for every geometry, images of at least nominal size and every address. -/
def Obligations.WalkLaws : Prop :=
  ∀ (g : Geometry) (mem disk : Memory) (v : Nat), Spec.nominal g mem disk →
    let f := splitAddress g v
    let r := (walk g mem disk v).result
    (∃ P : Byte, mem.read (g.pdbr + f.dirIndex) = some P ∧
      (r.status = .directoryFault ↔ P.getLsbD 7 = false) ∧
      (P.getLsbD 7 = false → r.status ≠ .tableFault ∧ r.status ≠ .resolvedDisk ∧ r.status ≠ .resolvedMemory) ∧
      (P.getLsbD 7 = true → ∃ Q : Byte,
        mem.read (((P.toNat % 128) <<< g.tw) + f.tblIndex) = some Q ∧
        (r.status = .tableFault ↔ Q.toNat % 128 = 0x7F) ∧
        (r.status = .resolvedDisk ↔ Q.toNat % 128 ≠ 0x7F ∧ Q.getLsbD 7 = false) ∧
        (r.status = .resolvedDisk →
          r.record.finalAddr = some (((Q.toNat % 128) <<< g.ow) + f.offset) ∧
          r.record.value.isSome = true ∧ r.record.value = disk.read (((Q.toNat % 128) <<< g.ow) + f.offset)) ∧
        (r.status = .resolvedMemory ↔ Q.toNat % 128 ≠ 0x7F ∧ Q.getLsbD 7 = true) ∧
        (r.status = .resolvedMemory →
          r.record.finalAddr = some (((Q.toNat % 128) <<< g.ow) + f.offset) ∧
          r.record.value.isSome = true ∧ r.record.value = mem.read (((Q.toNat % 128) <<< g.ow) + f.offset)))) ∧
    (r.status = .directoryFault ∨ r.status = .tableFault ∨ r.status = .resolvedDisk ∨ r.status = .resolvedMemory) ∧
    walk g mem disk v = walk g mem disk (v &&& mask g.vaw) ∧
    (∀ w : Nat, w / 2 ^ g.ow = v / 2 ^ g.ow →
      let q := (walk g mem disk w).result
      q.status = r.status ∧ q.record.pdeValid = r.record.pdeValid ∧ q.record.pdeFrame = r.record.pdeFrame ∧
      q.record.pteValid = r.record.pteValid ∧ q.record.pteFrame = r.record.pteFrame ∧
      q.record.finalAddr.map (· + v % 2 ^ g.ow) = r.record.finalAddr.map (· + w % 2 ^ g.ow))

/-- R43: the two concatenations and the one true addition. -/
def Obligations.AddressesAreConcatenations : Prop :=
  ∀ (g : Geometry) (v : Nat) (e : Entry),
    let f := splitAddress g v
    pteAddr g e f = (e.frame.toNat <<< g.tw) ||| f.tblIndex ∧ 2 ^ g.tw ∣ tableBase g e.frame ∧
    finalAddress g e f = (e.frame.toNat <<< g.ow) ||| f.offset ∧ 2 ^ g.ow ∣ pageBase g e.frame ∧
    pdeAddr g f = g.pdbr + f.dirIndex ∧
    (g.legal = true → g.dw ≤ g.ow → pdeAddr g f = g.pdbr ||| f.dirIndex)

/-! ### Results -/

/-- R78: the reserved code decodes to its own verdict, reads nothing, returns ILLEGAL_OP with no other field, and
changes no state beyond the result delivered. -/
def Obligations.ReservedCodeReturnsIllegalOp : Prop :=
  (∀ a, decode { op := 0b11#2, arg := a } = .reserved a) ∧
  (∀ (s : State) (a : Nat), exec (.reserved a) s = .next (Spec.answered s .illegalOp)) ∧
  (∀ (g : Geometry) (mem disk : Memory) (a : Nat), (perform g mem disk (.reserved a)).reads = []) ∧
  Result.illegalOp.record =
    { status := .illegalOp, dirIndex := none, tblIndex := none, offset := none, pdeValid := none, pdeFrame := none,
      pteValid := none, pteFrame := none, finalAddr := none, value := none, oorSite := none, oorAddr := none,
      valid := none, frame := none }

/-- R81: which fields a TRANSLATE result has, by status and site. -/
def Obligations.PresenceByOutcome : Prop :=
  ∀ (g : Geometry) (mem disk : Memory) (v : Nat),
    let c := (walk g mem disk v).result.record
    let e := Spec.presence c.status c.oorSite
    c.dirIndex.isSome = true ∧ c.tblIndex.isSome = true ∧ c.offset.isSome = true ∧
    c.pdeValid.isSome = e.1 ∧ c.pdeFrame.isSome = e.1 ∧
    c.pteValid.isSome = e.2.1 ∧ c.pteFrame.isSome = e.2.1 ∧ c.finalAddr.isSome = e.2.1 ∧
    c.value.isSome = e.2.2.1 ∧ c.oorSite.isSome = e.2.2.2 ∧ c.oorAddr.isSome = e.2.2.2

/-- R82, R84: the codes, who returns which, and that code 7 is never produced. -/
def Obligations.StatusAndSiteCodes : Prop :=
  [Status.ok, .resolvedMemory, .resolvedDisk, .directoryFault, .tableFault, .outOfRange, .illegalOp].map Status.code =
    [0, 1, 2, 3, 4, 5, 6] ∧
  [Site.pde, .pte, .dataMem, .dataDisk].map Site.code = [0, 1, 2, 3] ∧
  (∀ st : Status, st.code ≠ 7) ∧
  (∀ (g : Geometry) (mem disk : Memory) (i : Instr),
    let st := (perform g mem disk i).result.status
    match i with
    | .translate _ => 1 ≤ st.code.toNat ∧ st.code.toNat ≤ 5
    | .decompose _ => st = .ok
    | .decodeEntry _ => st = .ok
    | .reserved _ => st = .illegalOp)

/-- R84, R153: an OUT_OF_RANGE result names the exact address of the read that failed, which is not below the size of
the image the read is from, and carries no value. -/
def Obligations.OutOfRangeNamesTheFailingRead : Prop :=
  ∀ (g : Geometry) (mem disk : Memory) (v : Nat) (site : Site) (a : Nat) (p : TranslationPath),
    (walk g mem disk v).result = .outOfRange site a p →
    (Result.outOfRange site a p).record.value = none ∧
    match site with
    | .pde => a = g.pdbr + p.fields.dirIndex ∧ mem.size ≤ a
    | .pte => ∃ e, p.pde = some e ∧ e.valid = true ∧ a = (e.frame.toNat <<< g.tw) + p.fields.tblIndex ∧ mem.size ≤ a
    | .dataMem => p.finalAddr = some a ∧ mem.size ≤ a ∧ ∃ e, p.pte = some e ∧ e.valid = true ∧ e.frame ≠ 0x7F#7
    | .dataDisk => p.finalAddr = some a ∧ disk.size ≤ a ∧ ∃ e, p.pte = some e ∧ e.valid = false ∧ e.frame ≠ 0x7F#7

/-- R80, R83, R46: every number on the result port and every address on a read port fits the width the spec gives it,
so nothing is truncated. -/
def Obligations.PortNumbersFitTheirWidths : Prop :=
  ∀ (g : Geometry) (mem disk : Memory) (i : Instr),
    let t := perform g mem disk i
    let c := t.result.record.port
    (c.status < 7 ∧ c.dirIndex < 2 ^ g.dw ∧ c.tblIndex < 2 ^ g.tw ∧ c.offset < 2 ^ g.ow ∧
     c.pdeValid < 2 ∧ c.pdeFrame < 2 ^ 7 ∧ c.pteValid < 2 ∧ c.pteFrame < 2 ^ 7 ∧ c.finalAddr < 2 ^ g.paw ∧
     c.value < 2 ^ 8 ∧ c.oorSite < 4 ∧ c.oorAddr < 2 ^ g.xw ∧ c.valid < 2 ∧ c.frame < 2 ^ 7) ∧
    (∀ a ∈ t.reads, a.space = .mem → a.addr < 2 ^ g.xw) ∧
    (∀ a ∈ t.reads, a.space = .disk → a.addr < 2 ^ g.paw)

/-! ### Images, launch, reset, invariant -/

/-- R41, R182: the k-th byte the loader supplies is element k of the image, and nothing lies beyond the last. -/
def Obligations.LoadedByteKIsElementK : Prop :=
  ∀ (bytes : List Byte), (Memory.load bytes).size = bytes.length ∧
    ∀ k, (Memory.load bytes).read k = bytes[k]?

/-- The model's canonical form of an image (assumption 2): images that hold the same bytes are the same data. -/
def Obligations.CanonicalImagesAreDeterminedByTheirBytes : Prop :=
  ∀ (m m' : Memory), m.wf = true → m'.wf = true → m.size = m'.size →
    (∀ a, m.read a = m'.read a) → m = m'

/-- R22, R182: a launched instance has the constants and images it was given, is idle, and meets the invariant, also
after the host issues requests that fit the port. -/
def Obligations.LaunchedInstanceMeetsInv : Prop :=
  ∀ (g : Geometry) (vin : Nat) (m d : List Byte) (s : State), State.launch g vin m d = some s →
    s.geom = g ∧ s.vin = vin ∧ s.mem = Memory.load m ∧ s.disk = Memory.load d ∧ s.pending = [] ∧ s.results = [] ∧
    s.Inv ∧ ∀ rs : List Request, (∀ r ∈ rs, r.arg < 2 ^ vin) → (s.issue rs).Inv

/-- Every step keeps the invariant, whose heart is that every result delivered so far is truthful about the images
the instance still holds (R26, R121, R150). -/
def Obligations.StepKeepsInv : Prop :=
  ∀ (s s' : State), s.Inv → step s = .next s' → s'.Inv

/-- The state after reset meets the invariant. -/
def Obligations.ResetMeetsInv : Prop := State.reset.Inv

/-- R8, R11, R32, R180: reset is the reference instance at rest; and reset of any instance takes away what is in
flight and touches no constant and no image. What the images of `State.reset` hold is the model's choice
(assumption 2) and is not stated here. -/
def Obligations.ResetIsIdleAndKeepsTheInstance : Prop :=
  State.reset.geom = { dw := 5, tw := 5, ow := 5, sw := 5, pdbr := 0xD80 } ∧ State.reset.vin = 16 ∧
  State.reset.pending = [] ∧ State.reset.results = [] ∧
  (∀ s : State, s.afterReset.pending = [] ∧ s.afterReset.results = [] ∧ s.afterReset.geom = s.geom ∧
    s.afterReset.vin = s.vin ∧ s.afterReset.mem = s.mem ∧ s.afterReset.disk = s.disk)

/-- R7: the derived quantities, with their reference values; and R46: the width `XW` of the reference instance. -/
def Obligations.DerivedQuantities : Prop :=
  (∀ g : Geometry, g.vaw = g.dw + g.tw + g.ow ∧ g.paw = 7 + g.ow ∧ g.ptaw = 7 + g.tw ∧
    g.ndir = 2 ^ g.dw ∧ g.ntbl = 2 ^ g.tw ∧ g.page = 2 ^ g.ow) ∧
  Geometry.reference.vaw = 15 ∧ Geometry.reference.paw = 12 ∧ Geometry.reference.ptaw = 12 ∧
  Geometry.reference.ndir = 32 ∧ Geometry.reference.ntbl = 32 ∧ Geometry.reference.page = 32 ∧
  Geometry.reference.xw = 12
end

