-- ==== Sys2Proof/Laws/Bits.lean ====
section
/-! SUPPORT. The bit-field helpers as arithmetic: shift and mask are quotient and remainder. -/

namespace Sys2Proof

theorem mask_eq (n : Nat) : mask n = 2 ^ n - 1 := by
  simp [mask, Nat.shiftLeft_eq]

theorem and_mask_eq_mod (v n : Nat) : v &&& mask n = v % 2 ^ n := by
  rw [mask_eq, Nat.and_two_pow_sub_one_eq_mod]

theorem and_mask_lt (v n : Nat) : v &&& mask n < 2 ^ n := by
  rw [and_mask_eq_mod]; exact Nat.mod_lt _ (Nat.two_pow_pos n)

theorem slice_eq (v hi lo : Nat) : slice v hi lo = v / 2 ^ lo % 2 ^ (hi - lo + 1) := by
  rw [slice, and_mask_eq_mod, Nat.shiftRight_eq_div_pow]

theorem concat_eq (a n b : Nat) : concat a n b = a * 2 ^ n + b := by
  simp [concat, Nat.shiftLeft_eq]

namespace Machine

theorem splitAddress_dirIndex_eq (g : Geometry) (v : Nat) :
    (splitAddress g v).dirIndex = v / 2 ^ (g.tw + g.ow) % 2 ^ g.dw := by
  simp only [splitAddress, and_mask_eq_mod, Nat.shiftRight_eq_div_pow]

theorem splitAddress_tblIndex_eq (g : Geometry) (v : Nat) :
    (splitAddress g v).tblIndex = v / 2 ^ g.ow % 2 ^ g.tw := by
  simp only [splitAddress, and_mask_eq_mod, Nat.shiftRight_eq_div_pow]

theorem splitAddress_offset_eq (g : Geometry) (v : Nat) :
    (splitAddress g v).offset = v % 2 ^ g.ow := by
  simp only [splitAddress, and_mask_eq_mod]

theorem splitEntry_valid_eq (n : Nat) : (splitEntry n).valid = decide (n / 128 % 2 = 1) := by
  have h : (n >>> 7) &&& 1 = n / 128 % 2 := by
    rw [Nat.and_one_is_mod, Nat.shiftRight_eq_div_pow]
  simp only [splitEntry, h]
  by_cases h1 : n / 128 % 2 = 1 <;> simp [h1]

theorem splitEntry_frame_toNat (n : Nat) : (splitEntry n).frame.toNat = n % 128 := by
  have h : n &&& 0x7F = n % 128 := Nat.and_two_pow_sub_one_eq_mod n 7
  simp only [splitEntry, h, BitVec.toNat_ofNat]
  omega

theorem pteAddr_eq (g : Geometry) (e : Entry) (f : Fields) :
    pteAddr g e f = e.frame.toNat * 2 ^ g.tw + f.tblIndex := by
  simp [pteAddr, tableBase, Nat.shiftLeft_eq]

theorem finalAddress_eq (g : Geometry) (e : Entry) (f : Fields) :
    finalAddress g e f = e.frame.toNat * 2 ^ g.ow + f.offset := by
  simp [finalAddress, pageBase, Nat.shiftLeft_eq]

end Machine
end Sys2Proof
end

