-- ==== Sys2Proof/Laws/State.lean ====
section
/-! SUPPORT. One lemma per field per update of a state and of a translation path. -/

namespace Sys2Proof.Machine

section deliver
variable (s : State) (r : Result)
@[simp] theorem State.deliver_geom : (s.deliver r).geom = s.geom := rfl
@[simp] theorem State.deliver_vin : (s.deliver r).vin = s.vin := rfl
@[simp] theorem State.deliver_mem : (s.deliver r).mem = s.mem := rfl
@[simp] theorem State.deliver_disk : (s.deliver r).disk = s.disk := rfl
@[simp] theorem State.deliver_pending : (s.deliver r).pending = s.pending := rfl
@[simp] theorem State.deliver_results : (s.deliver r).results = s.results ++ [r] := rfl
end deliver

section issue
variable (s : State) (rs : List Request)
@[simp] theorem State.issue_geom : (s.issue rs).geom = s.geom := rfl
@[simp] theorem State.issue_vin : (s.issue rs).vin = s.vin := rfl
@[simp] theorem State.issue_mem : (s.issue rs).mem = s.mem := rfl
@[simp] theorem State.issue_disk : (s.issue rs).disk = s.disk := rfl
@[simp] theorem State.issue_pending : (s.issue rs).pending = s.pending ++ rs := rfl
@[simp] theorem State.issue_results : (s.issue rs).results = s.results := rfl
end issue

section withRequest
variable (s : State) (r : Request)
@[simp] theorem State.withRequest_geom : (s.withRequest r).geom = s.geom := rfl
@[simp] theorem State.withRequest_vin : (s.withRequest r).vin = s.vin := rfl
@[simp] theorem State.withRequest_mem : (s.withRequest r).mem = s.mem := rfl
@[simp] theorem State.withRequest_disk : (s.withRequest r).disk = s.disk := rfl
@[simp] theorem State.withRequest_pending : (s.withRequest r).pending = r :: s.pending := rfl
@[simp] theorem State.withRequest_results : (s.withRequest r).results = s.results := rfl
end withRequest

section afterReset
variable (s : State)
@[simp] theorem State.afterReset_geom : s.afterReset.geom = s.geom := rfl
@[simp] theorem State.afterReset_vin : s.afterReset.vin = s.vin := rfl
@[simp] theorem State.afterReset_mem : s.afterReset.mem = s.mem := rfl
@[simp] theorem State.afterReset_disk : s.afterReset.disk = s.disk := rfl
@[simp] theorem State.afterReset_pending : s.afterReset.pending = [] := rfl
@[simp] theorem State.afterReset_results : s.afterReset.results = [] := rfl
end afterReset

section path
variable (p : TranslationPath) (f : Fields) (e : Entry) (a : Nat)
@[simp] theorem TranslationPath.start_fields : (TranslationPath.start f).fields = f := rfl
@[simp] theorem TranslationPath.start_pde : (TranslationPath.start f).pde = none := rfl
@[simp] theorem TranslationPath.start_pte : (TranslationPath.start f).pte = none := rfl
@[simp] theorem TranslationPath.start_finalAddr : (TranslationPath.start f).finalAddr = none := rfl
@[simp] theorem TranslationPath.withPde_fields : (p.withPde e).fields = p.fields := rfl
@[simp] theorem TranslationPath.withPde_pde : (p.withPde e).pde = some e := rfl
@[simp] theorem TranslationPath.withPde_pte : (p.withPde e).pte = p.pte := rfl
@[simp] theorem TranslationPath.withPde_finalAddr : (p.withPde e).finalAddr = p.finalAddr := rfl
@[simp] theorem TranslationPath.withPte_fields : (p.withPte e a).fields = p.fields := rfl
@[simp] theorem TranslationPath.withPte_pde : (p.withPte e a).pde = p.pde := rfl
@[simp] theorem TranslationPath.withPte_pte : (p.withPte e a).pte = some e := rfl
@[simp] theorem TranslationPath.withPte_finalAddr : (p.withPte e a).finalAddr = some a := rfl
end path

@[simp] theorem finish_reads (r : Result) : (finish r).reads = [] := rfl
@[simp] theorem finish_result (r : Result) : (finish r).result = r := rfl

end Sys2Proof.Machine
end

