-- ==== Sys2Proof/Laws/Ops.lean ====
section
/-! SUPPORT. What the shared operations do: reading, loading, one bounded read of a walk, delivering. -/

namespace Sys2Proof.Machine

theorem Memory.read_eq_some_iff (m : Memory) (a : Nat) (b : Byte) :
    m.read a = some b ↔ a < m.size ∧ cellAt m.cells a = b := by
  unfold Memory.read; split <;> simp_all

theorem Memory.read_eq_none_iff (m : Memory) (a : Nat) : m.read a = none ↔ m.size ≤ a := by
  unfold Memory.read; split <;> simp_all

theorem Memory.readEntry_eq_some_iff (m : Memory) (a : Nat) (e : Entry) :
    m.readEntry a = some e ↔ ∃ b, m.read a = some b ∧ splitEntry b.toNat = e := by
  simp [Memory.readEntry, Option.map_eq_some_iff]

/-- The lower bound of a canonical cell list may be lowered. -/
theorem cellsWf_mono {size lo lo' : Nat} (h : lo' ≤ lo) :
    ∀ {cells : List Host.Cell}, cellsWf size lo cells = true → cellsWf size lo' cells = true
  | [], _ => rfl
  | (k, b) :: rest, hw => by
    simp only [cellsWf, Bool.and_eq_true, decide_eq_true_eq] at hw ⊢
    exact ⟨⟨⟨by omega, hw.1.1.2⟩, hw.1.2⟩, hw.2⟩

/-- Loaded cells are in canonical form. -/
theorem cellsFrom_wf (bytes : List Byte) : ∀ k, cellsWf (k + bytes.length) k (cellsFrom k bytes) = true := by
  induction bytes with
  | nil => intro k; rfl
  | cons b rest ih =>
    intro k
    have h := ih (k + 1)
    have hlen : k + 1 + rest.length = k + (b :: rest).length := by simp; omega
    rw [hlen] at h
    unfold cellsFrom
    split
    · exact cellsWf_mono (by omega) h
    · rename_i hb
      simp only [cellsWf, Bool.and_eq_true, decide_eq_true_eq]
      exact ⟨⟨⟨le_refl _, by simp⟩, hb⟩, h⟩

/-- Loading gives an image in canonical form. -/
theorem Memory.load_wf (bytes : List Byte) : (Memory.load bytes).wf = true := by
  have h := cellsFrom_wf bytes 0
  simpa [Memory.wf, Memory.load] using h

/-- One bounded read: either it is out of range and ends the operation with what was established, or it hands
on the byte and is counted first (R48, R153). -/
theorem readByte_cases (space : Space) (m : Memory) (a : Nat) (site : Site) (p : TranslationPath) (k : Byte → Transaction) :
    (m.size ≤ a ∧ m.read a = none ∧ readByte space m a site p k = finish (.outOfRange site a p)) ∨
    (∃ b, m.read a = some b ∧
      readByte space m a site p k = ⟨⟨space, a⟩ :: (k b).reads, (k b).result⟩) := by
  cases h : m.read a with
  | none => exact .inl ⟨(m.read_eq_none_iff a).1 h, rfl, by simp [readByte, h]⟩
  | some b => exact .inr ⟨b, rfl, by simp [readByte, h]⟩

theorem readByte_of_some {space : Space} {m : Memory} {a : Nat} {b : Byte} (h : m.read a = some b)
    (site : Site) (p : TranslationPath) (k : Byte → Transaction) :
    readByte space m a site p k = ⟨⟨space, a⟩ :: (k b).reads, (k b).result⟩ := by
  simp [readByte, h]

theorem readByte_of_none {space : Space} {m : Memory} {a : Nat} (h : m.read a = none)
    (site : Site) (p : TranslationPath) (k : Byte → Transaction) :
    readByte space m a site p k = finish (.outOfRange site a p) := by
  simp [readByte, h]

theorem complete_eq (s : State) (t : Transaction) : complete s t = .next (s.deliver t.result) := rfl

end Sys2Proof.Machine
end

