-- ==== Sys2Proof/Laws/PerInstr.lean ====
section
/-! SUPPORT. The per-operation family: the request of an operation decodes to that operation. -/

namespace Sys2Proof.Laws.RequestRoundTrip

/-- No field of a request is dropped or moved (R75, R77). -/
def Statement (i : Instr) : Prop := decode (encode i) = i

theorem translate (vaddr : Nat) : Statement (.translate vaddr) := rfl

theorem decompose (vaddr : Nat) : Statement (.decompose vaddr) := rfl

theorem decodeEntry (arg : Nat) : Statement (.decodeEntry arg) := rfl

theorem reserved (arg : Nat) : Statement (.reserved arg) := rfl

end Sys2Proof.Laws.RequestRoundTrip
end

