-- ==== Sys2Proof/Laws/Step.lean ====
section
/-! SUPPORT. What performing an operation and taking a step can do, said once. -/

namespace Sys2Proof.Machine

/-- Every operation delivers the result of its transaction and does nothing else (R26, R158). -/
theorem exec_eq_deliver (i : Instr) (s : State) :
    exec i s = .next (s.deliver (perform s.geom s.mem s.disk i).result) := by
  cases i <;> rfl

/-- What a step that goes on did: it rested, or it performed the first pending request (R27). -/
theorem step_cases {s s' : State} (h : step s = .next s') :
    s.legal = true ∧
    ((s.pending = [] ∧ s' = s) ∨
     ∃ r rest, s.pending = r :: rest ∧
       s' = State.deliver { s with pending := rest } (perform s.geom s.mem s.disk (decode r)).result) := by
  unfold step at h
  split at h
  case isFalse => cases h
  case isTrue hl =>
    refine ⟨hl, ?_⟩
    cases hp : s.pending with
    | nil =>
      simp only [State.fetch, hp] at h
      cases h
      exact .inl ⟨rfl, rfl⟩
    | cons r rest =>
      simp only [State.fetch, hp, exec_eq_deliver] at h
      cases h
      exact .inr ⟨r, rest, rfl, rfl⟩

/-- A step of a legal instance with a pending request performs it. -/
theorem step_of_pending {s : State} {r : Request} {rest : List Request} (hl : s.legal = true)
    (hp : s.pending = r :: rest) : step s = exec (decode r) { s with pending := rest } := by
  simp [step, hl, State.fetch, hp]

/-- A step of a legal instance with no pending request rests. -/
theorem step_of_idle {s : State} (hl : s.legal = true) (hp : s.pending = []) : step s = .next s := by
  simp [step, hl, State.fetch, hp]

/-- A run goes on from the state its first step leads to. -/
theorem runSteps_succ {s s' : State} (h : step s = .next s') (k : Nat) : runSteps (k + 1) s = runSteps k s' := by
  simp only [runSteps, h]

/-- The model's run is the host's run of the machine. -/
theorem core_run_eq_runSteps (k : Nat) : ∀ s : State, Host.Core.run Sys2Proof.core k s = runSteps k s := by
  induction k with
  | zero => intro s; rfl
  | succ k ih =>
    intro s
    cases h : step s with
    | next s' =>
      have h' : Sys2Proof.core.step s = .next s' := h
      rw [runSteps_succ h, ← ih s']
      simp only [Host.Core.run, h']
    | fault r => cases r
    | refused r =>
      have h' : Sys2Proof.core.step s = .refused r := h
      simp only [Host.Core.run, runSteps, h, h']
      rfl

end Sys2Proof.Machine
end

