-- ==== Sys2Proof/Laws/Walk.lean ====
section
/-! SUPPORT. Everything one walk can do, said once: the seven exits of R133 with what each has read. -/

namespace Sys2Proof.Machine

/-- The exits of step 6 and step 7 (R129 to R132). -/
theorem resolve_cases (mem disk : Memory) (p : TranslationPath) (pte : Entry) (a : Nat) :
    (pte.frame = sentinel ∧ resolve mem disk p pte a = finish (.tableFault p)) ∨
    (pte.frame ≠ sentinel ∧ pte.valid = false ∧
      ((disk.read a = none ∧ resolve mem disk p pte a = finish (.outOfRange .dataDisk a p)) ∨
       ∃ v, disk.read a = some v ∧ resolve mem disk p pte a = ⟨[⟨.disk, a⟩], .resolved .disk p v⟩)) ∨
    (pte.frame ≠ sentinel ∧ pte.valid = true ∧
      ((mem.read a = none ∧ resolve mem disk p pte a = finish (.outOfRange .dataMem a p)) ∨
       ∃ v, mem.read a = some v ∧ resolve mem disk p pte a = ⟨[⟨.mem, a⟩], .resolved .memory p v⟩)) := by
  unfold resolve
  by_cases hs : pte.frame = sentinel
  · exact .inl ⟨hs, by simp [hs]⟩
  · right
    rcases Bool.eq_false_or_eq_true pte.valid with hv | hv
    · refine .inr ⟨hs, hv, ?_⟩
      cases h : mem.read a with
      | none => exact .inl ⟨rfl, by simp [hs, hv, readByte, h]⟩
      | some v => exact .inr ⟨v, rfl, by simp [hs, hv, readByte, h]⟩
    · refine .inl ⟨hs, hv, ?_⟩
      cases h : disk.read a with
      | none => exact .inl ⟨rfl, by simp [hs, hv, readByte, h]⟩
      | some v => exact .inr ⟨v, rfl, by simp [hs, hv, readByte, h]⟩

/-- A walk whose directory entry lies outside MEM (R123). -/
theorem walk_of_pde_none {g : Geometry} {mem disk : Memory} {v : Nat}
    (h : mem.read (pdeAddr g (splitAddress g v)) = none) :
    walk g mem disk v =
      finish (.outOfRange .pde (pdeAddr g (splitAddress g v)) (.start (splitAddress g v))) := by
  simp [walk, lookupDirectory, readByte, h]

/-- A walk that reads an invalid directory entry (R123). -/
theorem walk_of_pde_invalid {g : Geometry} {mem disk : Memory} {v : Nat} {b : Byte}
    (h : mem.read (pdeAddr g (splitAddress g v)) = some b) (hv : (splitEntry b.toNat).valid = false) :
    walk g mem disk v =
      ⟨[⟨.mem, pdeAddr g (splitAddress g v)⟩],
       .directoryFault (.withPde (.start (splitAddress g v)) (splitEntry b.toNat))⟩ := by
  simp [walk, lookupDirectory, readByte, h, hv]

/-- A walk that reads a valid directory entry goes on to the table lookup, whatever the frame (R123). -/
theorem walk_of_pde_valid {g : Geometry} {mem disk : Memory} {v : Nat} {b : Byte}
    (h : mem.read (pdeAddr g (splitAddress g v)) = some b) (hv : (splitEntry b.toNat).valid = true) :
    walk g mem disk v =
      let t := lookupTable g mem disk (.withPde (.start (splitAddress g v)) (splitEntry b.toNat)) (splitEntry b.toNat)
      ⟨⟨.mem, pdeAddr g (splitAddress g v)⟩ :: t.reads, t.result⟩ := by
  simp [walk, lookupDirectory, readByte, h, hv]

/-- A table lookup outside MEM (R124). -/
theorem lookupTable_of_none {g : Geometry} {mem disk : Memory} {p : TranslationPath} {pde : Entry}
    (h : mem.read (pteAddr g pde p.fields) = none) :
    lookupTable g mem disk p pde = finish (.outOfRange .pte (pteAddr g pde p.fields) p) := by
  simp [lookupTable, readByte, h]

/-- A table lookup that reads its entry goes on to resolve the final address (R124, R128). -/
theorem lookupTable_of_some {g : Geometry} {mem disk : Memory} {p : TranslationPath} {pde : Entry} {b : Byte}
    (h : mem.read (pteAddr g pde p.fields) = some b) :
    lookupTable g mem disk p pde =
      let e := splitEntry b.toNat
      let a := finalAddress g e p.fields
      let t := resolve mem disk (p.withPte e a) e a
      ⟨⟨.mem, pteAddr g pde p.fields⟩ :: t.reads, t.result⟩ := by
  simp [lookupTable, readByte, h]

end Sys2Proof.Machine
end

