-- ==== Sys2Proof/Tests/Slice0.lean ====
section
/-! SUPPORT. Tests. Expected values come from the spec's own vectors (V1 to V47, S1 to S9 of 95_test_vectors.md) and
corner-case tables. Then one witness per statement with hypotheses. -/

namespace Sys2Proof.Tests
open Sys2Proof.Machine

/-! ### Helpers -/

/-- Some bytes of IMG-A (95_test_vectors.md section 3), at nominal size. -/
def memA : Memory :=
  { size := 0x1000
    cells := [(0x009, 0x09), (0x027, 0xA7), (0x09F, 0x5F), (0x0A0, 0x03), (0x0A1, 0x84), (0x0A2, 0x7F), (0x0A3, 0xFF),
      (0x0A5, 0x80), (0x0BF, 0xFE), (0xD80, 0x85), (0xD82, 0x7F), (0xD83, 0xFF), (0xFDF, 0xFF), (0xFE0, 0x81)] }

/-- Some bytes of IMG-A's backing store. -/
def diskA : Memory := { size := 0x1000, cells := [(0x007, 0x27), (0x021, 0x41), (0x060, 0xC0)] }

/-- Some bytes of IMG-B: the same images cut short. -/
def memB : Memory :=
  { size := 0xD90
    cells := [(0x0A0, 0x03), (0x0A2, 0x7F), (0x0A5, 0x80), (0x0BF, 0xFE), (0xD80, 0x85), (0xD83, 0xFF)] }

def diskB : Memory := { size := 0x40, cells := [(0x021, 0x41)] }

/-- The reference instance on given images with given requests pending. -/
def refState (mem disk : Memory) (pending : List Request) : State :=
  { geom := Geometry.reference, vin := 16, mem := mem, disk := disk, pending := pending, results := [] }

def stA : State := refState memA diskA []

def stB : State := refState memB diskB []

/-- IMG-C's geometry, with the bytes vector V39 reads. -/
def geomC : Geometry := { dw := 2, tw := 3, ow := 4, sw := 4, pdbr := 0x40 }

def memC : Memory := { size := 0x800, cells := [(0x011, 0x83), (0x039, 0x59), (0x040, 0x82)] }

/-- The last result an outcome delivered. -/
def lastResult : Host.Outcome State Fault Refusal → Option Result
  | .next s => s.results.getLast?
  | _ => none

/-! ### Well-formedness: each check refuses an ill-formed term -/

theorem test_wf_translate : Instr.wf 16 (.translate 0x10000) = false := by decide
theorem test_wf_decompose : Instr.wf 16 (.decompose 0x10000) = false := by decide
theorem test_wf_decodeEntry : Instr.wf 16 (.decodeEntry 0x10000) = false := by decide
theorem test_wf_reserved : Instr.wf 16 (.reserved 0x10000) = false := by decide
theorem test_wf_request : Request.fits 16 { op := 0b01#2, arg := 0x10000 } = false := by decide

/-! ### Decoding: words written out from R79, `op` in bits 17:16 and `arg` in bits 15:0 -/

/-- `00` then `0110110001110100`. -/
theorem test_decode_translate : decodeTableWord 24 0b000110110001110100 = some (.translate 0x6C74) := by decide
/-- `01` then `0110110001110100`. -/
theorem test_decode_decompose : decodeTableWord 24 0b010110110001110100 = some (.decompose 0x6C74) := by decide
/-- `10` then `0000000110000101` (V10). -/
theorem test_decode_decodeEntry : decodeTableWord 24 0b100000000110000101 = some (.decodeEntry 0x185) := by decide
/-- `11` then `0000110000000111` (P2 line 5). -/
theorem test_decode_reserved : decodeTableWord 24 0b110000110000000111 = some (.reserved 0x0C07) := by decide
/-- A number with bit 18 set is no request word. -/
theorem test_decode_too_wide : decodeWord 16 0x40000 = .error (.wordTooWide 0x40000) := by decide
theorem test_encode_reserved : encodeWord 16 (.reserved 0xFFFF) = 0x3FFFF := by decide

/-! ### One step, or one operation, per test -/

/-- V24: PDE `0xFF` is walked, RESOLVED_MEMORY, value `0xA7` at `0x027`. -/
theorem test_translate_V24 :
    lastResult (exec (.translate 0x0C07) stA) =
      some (.resolved .memory
        { fields := ⟨3, 0, 7⟩, pde := some ⟨true, 0x7F⟩, pte := some ⟨true, 1⟩, finalAddr := some 0x027 } 0xA7) := by
  decide
/-- V39: the page-table base is `2 << TW`, in a geometry whose widths differ. -/
theorem test_translate_V39 :
    (walk geomC memC { size := 0x800, cells := [] } 0x019).result =
      .resolved .memory
        { fields := ⟨0, 1, 9⟩, pde := some ⟨true, 2⟩, pte := some ⟨true, 3⟩, finalAddr := some 0x039 } 0x59 := by
  decide
/-- V4. -/
theorem test_decompose_V4 :
    lastResult (exec (.decompose 0x6C74) stA) = some (.decomposed ⟨27, 3, 20⟩) := by decide
/-- `DECOMPOSE 0x219` of section 4: bit 9 is above `VAW = 9`. -/
theorem test_decompose_geomC : (decompose geomC 0x219).result = .decomposed ⟨0, 1, 9⟩ := by decide
/-- V9. -/
theorem test_decodeEntry_V9 :
    lastResult (exec (.decodeEntry 0xFF) stA) = some (.decodedEntry ⟨true, 0x7F⟩) := by decide
/-- V10. -/
theorem test_decodeEntry_V10 :
    lastResult (exec (.decodeEntry 0x0185) stA) = some (.decodedEntry ⟨true, 5⟩) := by decide
/-- V31, as the first step after reset. -/
theorem test_reserved_V31 :
    lastResult (step (State.reset.withFetchWord 24 0x3FFFF)) = some .illegalOp := by decide
/-- R83: on a port an absent field is zero; V22's record has no PTE and no value. -/
theorem test_port_V22 :
    (walk Geometry.reference memA diskA 0x0400).result.record.port =
      { status := 3, dirIndex := 1, tblIndex := 0, offset := 0, pdeValid := 0, pdeFrame := 0, pteValid := 0, pteFrame := 0,
        finalAddr := 0, value := 0, oorSite := 0, oorAddr := 0, valid := 0, frame := 0 } := by
  decide

/-- R23: the reference page directory is page `0x6C` and ends at `0xD9F`. -/
theorem test_reference_pdbr :
    Geometry.reference.pdbr = 0x6C <<< 5 ∧ Geometry.reference.pdbr + Geometry.reference.ndir - 1 = 0xD9F := by decide

theorem test_images_wf : memA.wf = true ∧ diskA.wf = true ∧ memB.wf = true ∧ diskB.wf = true ∧ memC.wf = true := by
  decide

theorem test_noncanonical_refused :
    Memory.wf { size := 4, cells := [(2, 1), (1, 1)] } = false ∧ Memory.wf { size := 4, cells := [(1, 0)] } = false ∧
    Memory.wf { size := 4, cells := [(4, 1)] } = false := by decide

theorem test_parse_refuses_bad_arguments :
    ["TRANSLATE 6C74".toList, "TRANSLATE 0x".toList, "TRANSLATE 0x6G".toList].map parseLine = [none, none, none] := by
  decide

/-- Every digit, of both letter cases. -/
theorem test_hex_digits :
    hexArg "0xFEDCBA9876543210".toList = some 0xFEDCBA9876543210 ∧ hexArg "0xfedcba".toList = some 0xFEDCBA := by decide

/-! ### Witnesses: for each statement with hypotheses, a concrete case that meets them together -/

/-- The largest argument of a 16-bit port. -/
theorem witness_DecodeEncodeRoundTrip : Instr.wf 16 (.reserved 0xFFFF) = true ∧ Instr.wf 16 (.translate 0) = true := by
  decide

theorem witness_EveryRequestWordHasOneMeaning :
    0x3FFFF < 2 ^ (16 + 2) ∧ Instr.wf 16 (.reserved 0xFFFF) = true ∧ encodeWord 16 (.reserved 0xFFFF) = 0x3FFFF ∧
    2 ^ (16 + 2) ≤ 0x40000 := by decide

/-- Both clauses: one request pending, and none. -/
theorem witness_StepPerformsTheFirstPendingRequest :
    (refState memA diskA [⟨0b00#2, 0x0C07⟩]).legal = true ∧
    (refState memA diskA [⟨0b00#2, 0x0C07⟩]).pending = ⟨0b00#2, 0x0C07⟩ :: [] ∧
    decode ⟨0b00#2, 0x0C07⟩ = .translate 0x0C07 ∧ stA.legal = true ∧ stA.pending = [] := by decide

/-- `PDBR` one byte off a page boundary. -/
theorem witness_IllegalInstanceIsRefused :
    State.legal { stA with geom := { Geometry.reference with pdbr := 0xD81 } } = false ∧
    (State.launch Geometry.reference 16 [] []).isSome = true ∧ State.launch Geometry.reference 14 [] [] = none := by
  decide

theorem witness_LegalInstanceAlwaysGoesOn :
    (refState memA diskA [⟨0b11#2, 0⟩]).legal = true ∧ stA.legal = true := by decide

theorem witness_OperationsChangeNoState : ∃ s', exec (.translate 0x0C07) stA = .next s' := ⟨_, rfl⟩

/-- Two states of one instance that differ in what is pending. -/
theorem witness_ResultDependsOnInstanceAndRequestOnly :
    stA.geom = (refState memA diskA [⟨0b11#2, 0⟩]).geom ∧ stA.mem = (refState memA diskA [⟨0b11#2, 0⟩]).mem ∧
    stA.disk = (refState memA diskA [⟨0b11#2, 0⟩]).disk ∧ stA ≠ refState memA diskA [⟨0b11#2, 0⟩] := by decide

theorem witness_RunDeliversOneResultPerRequest :
    (refState memA diskA [⟨0b11#2, 0⟩, ⟨0b00#2, 0⟩]).legal = true ∧
    (refState memA diskA [⟨0b11#2, 0⟩, ⟨0b00#2, 0⟩]).pending[1]? = some ⟨0b00#2, 0⟩ ∧
    [Result.illegalOp, .illegalOp][1]? = some .illegalOp := by decide

/-- The largest fields. -/
theorem witness_DecomposeRoundTrips :
    31 < 2 ^ Geometry.reference.dw ∧ 31 < 2 ^ Geometry.reference.tw ∧ 31 < 2 ^ Geometry.reference.ow := by decide

theorem witness_DecomposeCornerCases :
    2 ^ 16 ≤ 0x10000 ∧ Geometry.dw { Geometry.reference with pdbr := 0 } = Geometry.reference.dw ∧
    Geometry.tw { Geometry.reference with pdbr := 0 } = Geometry.reference.tw ∧
    Geometry.ow { Geometry.reference with pdbr := 0 } = Geometry.reference.ow := by decide

/-- V32: the first address past MEM. -/
theorem witness_DirectoryLookup_outOfRange :
    stB.mem.size ≤ stB.geom.pdbr + (splitAddress stB.geom 0x4000).dirIndex := by decide
/-- V23: the largest byte whose valid bit is 0. -/
theorem witness_DirectoryLookup_invalid :
    stA.mem.read (stA.geom.pdbr + (splitAddress stA.geom 0x0800).dirIndex) = some 0x7F#8 ∧
    (0x7F#8).getLsbD 7 = false := by decide
/-- V24: a valid entry whose frame is the sentinel's. -/
theorem witness_DirectoryLookup_valid :
    stA.mem.read (stA.geom.pdbr + (splitAddress stA.geom 0x0C07).dirIndex) = some 0xFF#8 ∧
    (0xFF#8).getLsbD 7 = true := by decide

/-- V34. -/
theorem witness_TableLookup_outOfRange :
    stB.mem.read (stB.geom.pdbr + (splitAddress stB.geom 0x0C00).dirIndex) = some 0xFF#8 ∧ (0xFF#8).getLsbD 7 = true ∧
    stB.mem.size ≤ ((splitEntry 0xFF).frame.toNat <<< stB.geom.tw) + (splitAddress stB.geom 0x0C00).tblIndex := by decide
/-- V24. -/
theorem witness_TableLookup_read :
    stA.mem.read (stA.geom.pdbr + (splitAddress stA.geom 0x0C07).dirIndex) = some 0xFF#8 ∧ (0xFF#8).getLsbD 7 = true ∧
    stA.mem.read (((splitEntry 0xFF).frame.toNat <<< stA.geom.tw) + (splitAddress stA.geom 0x0C07).tblIndex) =
      some 0x81#8 := by decide

/-- V38: valid bit 0, and a final address outside both images. -/
theorem witness_SentinelGivesTableFault_7F :
    stB.mem.read (stB.geom.pdbr + (splitAddress stB.geom 0x0045).dirIndex) = some 0x85#8 ∧ (0x85#8).getLsbD 7 = true ∧
    stB.mem.read (((splitEntry 0x85).frame.toNat <<< stB.geom.tw) + (splitAddress stB.geom 0x0045).tblIndex) =
      some 0x7F#8 := by decide
/-- V15: valid bit 1. -/
theorem witness_SentinelGivesTableFault_FF :
    stA.mem.read (stA.geom.pdbr + (splitAddress stA.geom 0x0060).dirIndex) = some 0x85#8 ∧ (0x85#8).getLsbD 7 = true ∧
    stA.mem.read (((splitEntry 0x85).frame.toNat <<< stA.geom.tw) + (splitAddress stA.geom 0x0060).tblIndex) =
      some 0xFF#8 := by decide

/-- V35: outside the short DISK. -/
theorem witness_NotResident_outOfRange :
    stB.mem.read (stB.geom.pdbr + (splitAddress stB.geom 0x0000).dirIndex) = some 0x85#8 ∧ (0x85#8).getLsbD 7 = true ∧
    stB.mem.read (((splitEntry 0x85).frame.toNat <<< stB.geom.tw) + (splitAddress stB.geom 0x0000).tblIndex) =
      some 0x03#8 ∧ (0x03#8).toNat < 0x7F ∧
    stB.disk.size ≤ ((0x03#8).toNat <<< stB.geom.ow) + (splitAddress stB.geom 0x0000).offset := by decide
/-- V16: the entry `0x00` is a mapping to sector 0. -/
theorem witness_NotResident_read :
    stA.mem.read (stA.geom.pdbr + (splitAddress stA.geom 0x0087).dirIndex) = some 0x85#8 ∧ (0x85#8).getLsbD 7 = true ∧
    stA.mem.read (((splitEntry 0x85).frame.toNat <<< stA.geom.tw) + (splitAddress stA.geom 0x0087).tblIndex) =
      some 0x00#8 ∧ (0x00#8).toNat < 0x7F ∧
    stA.disk.read (((0x00#8).toNat <<< stA.geom.ow) + (splitAddress stA.geom 0x0087).offset) = some 0x27#8 := by decide

/-- V37: the highest mappable frame, outside the short MEM. -/
theorem witness_Resident_outOfRange :
    stB.mem.read (stB.geom.pdbr + (splitAddress stB.geom 0x03FF).dirIndex) = some 0x85#8 ∧ (0x85#8).getLsbD 7 = true ∧
    stB.mem.read (((splitEntry 0x85).frame.toNat <<< stB.geom.tw) + (splitAddress stB.geom 0x03FF).tblIndex) =
      some 0xFE#8 ∧ 0x80 ≤ (0xFE#8).toNat ∧ (0xFE#8).toNat < 0xFF ∧
    stB.mem.size ≤ (((0xFE#8).toNat - 0x80) <<< stB.geom.ow) + (splitAddress stB.geom 0x03FF).offset := by decide
/-- V17: the entry `0x80`, frame 0 resident. -/
theorem witness_Resident_read :
    stA.mem.read (stA.geom.pdbr + (splitAddress stA.geom 0x00A9).dirIndex) = some 0x85#8 ∧ (0x85#8).getLsbD 7 = true ∧
    stA.mem.read (((splitEntry 0x85).frame.toNat <<< stA.geom.tw) + (splitAddress stA.geom 0x00A9).tblIndex) =
      some 0x80#8 ∧ 0x80 ≤ (0x80#8).toNat ∧ (0x80#8).toNat < 0xFF ∧
    stA.mem.read ((((0x80#8).toNat - 0x80) <<< stA.geom.ow) + (splitAddress stA.geom 0x00A9).offset) = some 0x09#8 := by
  decide

/-- V28 beside V11: bit 15 differs. -/
theorem witness_HighAddressBitsAreIgnored :
    0x8000 % 2 ^ stA.geom.vaw = 0 % 2 ^ stA.geom.vaw ∧ stA.geom = Geometry.reference := by decide

theorem witness_NominalImagesAreNeverOutOfRange :
    Spec.nominal Geometry.reference memA diskA ∧ 4096 ≤ memA.size ∧ 4096 ≤ diskA.size := by
  unfold Spec.nominal; decide

/-- V24 in MEM and V11 on DISK. -/
theorem witness_SentinelPageIsNeverData :
    (∃ p, (walk Geometry.reference memA diskA 0x0C07).result = .resolved .memory p 0xA7) ∧
    (∃ p, (walk Geometry.reference memA diskA 0x0000).result = .resolved .disk p 0xC0) := ⟨⟨_, rfl⟩, ⟨_, rfl⟩⟩

/-- Nominal images and two addresses that differ in the offset alone. -/
theorem witness_WalkLaws : Spec.nominal Geometry.reference memA diskA ∧
    0x003F / 2 ^ Geometry.reference.ow = 0x0020 / 2 ^ Geometry.reference.ow := by
  unfold Spec.nominal; decide

theorem witness_AddressesAreConcatenations :
    Geometry.reference.legal = true ∧ Geometry.reference.dw ≤ Geometry.reference.ow := by decide

/-- V32, V34, V37 and V35: the four sites. -/
theorem witness_OutOfRangeNamesTheFailingRead :
    (∃ p, (walk Geometry.reference memB diskB 0x4000).result = .outOfRange .pde 0xD90 p) ∧
    (∃ p, (walk Geometry.reference memB diskB 0x0C00).result = .outOfRange .pte 0xFE0 p) ∧
    (∃ p, (walk Geometry.reference memB diskB 0x03FF).result = .outOfRange .dataMem 0xFDF p) ∧
    (∃ p, (walk Geometry.reference memB diskB 0x0000).result = .outOfRange .dataDisk 0x060 p) :=
  ⟨⟨_, rfl⟩, ⟨_, rfl⟩, ⟨_, rfl⟩, ⟨_, rfl⟩⟩

/-- V11 reads both spaces. -/
theorem witness_PortNumbersFitTheirWidths :
    (⟨.mem, 0xD80⟩ : Access) ∈ (perform Geometry.reference memA diskA (.translate 0)).reads ∧
    (⟨.disk, 0x060⟩ : Access) ∈ (perform Geometry.reference memA diskA (.translate 0)).reads := by decide

/-- A loaded image beside the same image written out. -/
theorem witness_CanonicalImagesAreDeterminedByTheirBytes :
    (Memory.load [5, 0, 7]).wf = true ∧ Memory.wf { size := 3, cells := [(0, 5), (2, 7)] } = true ∧
    (Memory.load [5, 0, 7]).size = 3 ∧
    ∀ a, (Memory.load [5, 0, 7]).read a = Memory.read { size := 3, cells := [(0, 5), (2, 7)] } a :=
  ⟨by decide, by decide, rfl, fun _ => rfl⟩

/-- The largest argument the port can carry. -/
theorem witness_LaunchedInstanceMeetsInv :
    (∃ s, State.launch Geometry.reference 16 [0x85] [] = some s) ∧
    ∀ r ∈ [(⟨0b10#2, 0xFFFF⟩ : Request)], r.arg < 2 ^ 16 := ⟨⟨_, rfl⟩, by decide⟩

/-- A state that meets the invariant with a request pending, and its step. -/
theorem witness_StepKeepsInv :
    (refState memA diskA [⟨0b00#2, 0x0C07⟩]).Inv ∧ ∃ s', step (refState memA diskA [⟨0b00#2, 0x0C07⟩]) = .next s' :=
  ⟨⟨by decide, by decide, by decide, by decide, by simp [refState]⟩, ⟨_, rfl⟩⟩

end Sys2Proof.Tests
end

section
/-! SUPPORT. Construction, reset and determinism of an instance (R7 to R11, R19, R22, R180, R182). -/

namespace Sys2Proof

/-! ### Legality and construction -/

/-- The constraints of R9, one by one. -/
theorem Geometry.legal_iff (g : Geometry) :
    g.legal = true ↔ 1 ≤ g.dw ∧ 1 ≤ g.tw ∧ 1 ≤ g.ow ∧ g.sw = g.ow ∧ 2 ^ g.ow ∣ g.pdbr := by
  simp only [Geometry.legal, Bool.and_eq_true, decide_eq_true_eq, Nat.dvd_iff_mod_eq_zero, and_assoc]

/-- The constraint of R11 as its two bounds. -/
theorem Geometry.portLegal_iff (g : Geometry) (vin : Nat) :
    g.portLegal vin = true ↔ g.dw + g.tw + g.ow ≤ vin ∧ 8 ≤ vin := by
  simp only [Geometry.portLegal, Geometry.vaw, decide_eq_true_eq, Nat.max_le]

theorem Request.fits_iff (vin : Nat) (r : Request) : r.fits vin = true ↔ r.arg < 2 ^ vin := by
  simp only [Request.fits, decide_eq_true_eq]

namespace Machine

theorem State.legal_iff (s : State) :
    s.legal = true ↔ s.geom.legal = true ∧ s.geom.portLegal s.vin = true := by
  simp only [State.legal, Bool.and_eq_true]

theorem State.launch_isSome_iff (g : Geometry) (vin : Nat) (m d : List Byte) :
    (State.launch g vin m d).isSome = true ↔ g.legal = true ∧ g.portLegal vin = true := by
  simp only [State.launch, Option.isSome_ite, Bool.and_eq_true]

/-- Everything a successful launch can give: a legal instance with the constants and images supplied, at rest. -/
theorem State.launch_eq_some_iff (g : Geometry) (vin : Nat) (m d : List Byte) (s : State) :
    State.launch g vin m d = some s ↔
      (g.legal = true ∧ g.portLegal vin = true) ∧
      s = { geom := g, vin := vin, mem := Memory.load m, disk := Memory.load d, pending := [], results := [] } := by
  simp only [State.launch, Option.ite_none_right_eq_some, Bool.and_eq_true, Option.some.injEq, eq_comm (a := s)]

/-- A step of an illegal instance is refused (R9, assumption 5). -/
theorem step_of_illegal {s : State} (h : s.legal = false) : step s = .refused .illegalInstance := by
  simp [step, h]

/-! ### The invariant where nothing has been delivered, and under the host's move -/

/-- An instance at rest meets the invariant as soon as its constants are legal and its images canonical. -/
theorem State.inv_of_idle {s : State} (hl : s.legal = true) (hm : s.mem.wf = true) (hd : s.disk.wf = true)
    (hp : s.pending = []) (hr : s.results = []) : s.Inv where
  legal := hl
  memWf := hm
  diskWf := hd
  fits := by simp [hp]
  truthful := by simp [hr]

/-- A launched instance meets the invariant: loaded images are canonical (R22, R182). -/
theorem State.inv_of_launch {g : Geometry} {vin : Nat} {m d : List Byte} {s : State}
    (h : State.launch g vin m d = some s) : s.Inv := by
  obtain ⟨hlegal, rfl⟩ := (State.launch_eq_some_iff g vin m d s).1 h
  exact State.inv_of_idle ((State.legal_iff _).2 hlegal) (Memory.load_wf m) (Memory.load_wf d) rfl rfl

/-- Issuing requests that the port can carry keeps the invariant (R75, R88). -/
theorem State.Inv.issue {s : State} (h : s.Inv) {rs : List Request} (hrs : ∀ r ∈ rs, r.fits s.vin = true) :
    (s.issue rs).Inv where
  legal := h.legal
  memWf := h.memWf
  diskWf := h.diskWf
  fits := fun r hr => (List.mem_append.1 hr).elim (h.fits r) (hrs r)
  truthful := h.truthful

/-! ### Determinism -/

/-- What `exec` delivers, in the statements' own words: the result of `perform`, which sees only the geometry,
the two images and the operation (R19, R26). -/
theorem exec_eq_answered (i : Instr) (s : State) :
    exec i s = .next (Spec.answered s (perform s.geom s.mem s.disk i).result) :=
  exec_eq_deliver i s

/-! ### The statements -/

/-- Settles O9: the one result is that of `perform` on the common geometry and images. -/
theorem resultDependsOnInstanceAndRequestOnly : Obligations.ResultDependsOnInstanceAndRequestOnly := by
  intro i s₁ s₂ hgeom hmem hdisk
  refine ⟨(perform s₁.geom s₁.mem s₁.disk i).result, exec_eq_answered i s₁, ?_⟩
  rw [hgeom, hmem, hdisk]
  exact exec_eq_answered i s₂

/-- Settles O37: the fields are read off the launched state, and issuing requests keeps its invariant. -/
theorem launchedInstanceMeetsInv : Obligations.LaunchedInstanceMeetsInv := by
  intro g vin m d s hs
  have hinv : s.Inv := State.inv_of_launch hs
  obtain ⟨-, rfl⟩ := (State.launch_eq_some_iff g vin m d s).1 hs
  refine ⟨rfl, rfl, rfl, rfl, rfl, rfl, hinv, fun rs hrs => hinv.issue fun r hr => ?_⟩
  exact (Request.fits_iff vin r).2 (hrs r hr)

/-- Settles O6, from the constraints of R9 and R11 written out. -/
theorem illegalInstanceIsRefused : Obligations.IllegalInstanceIsRefused := by
  refine ⟨fun g vin m d => ?_, fun s => step_of_illegal⟩
  rw [State.launch_isSome_iff, Geometry.legal_iff, Geometry.portLegal_iff]
  simp only [and_assoc]

/-- Settles O39: the reference constants are legal, and an image that lists nothing is canonical. -/
theorem resetMeetsInv : Obligations.ResetMeetsInv :=
  State.inv_of_idle (s := State.reset) (by decide) rfl rfl rfl rfl

/-- Settles O40: the fields of the launch state are read off it, and `afterReset` writes the two queues only. -/
theorem resetIsIdleAndKeepsTheInstance : Obligations.ResetIsIdleAndKeepsTheInstance := by
  refine ⟨rfl, rfl, rfl, rfl, fun s => ?_⟩
  simp only [State.afterReset_pending, State.afterReset_results, State.afterReset_geom, State.afterReset_vin,
    State.afterReset_mem, State.afterReset_disk, and_self]

/-- The last directory entry, at `0xD9F`, needs 12 bits, as `PAW` and `PTAW` do (R46). -/
theorem reference_xw : Geometry.reference.xw = 12 := by decide

/-- Settles O41: the quantities of R7 are so defined, and their reference values and that of `XW` are computed. -/
theorem derivedQuantities : Obligations.DerivedQuantities :=
  ⟨fun _ => ⟨rfl, rfl, rfl, rfl, rfl, rfl⟩, rfl, rfl, rfl, rfl, rfl, rfl, reference_xw⟩

end Machine
end Sys2Proof
end

section
/-! SUPPORT. The state of an instance along a run: truthful results, the invariant, the canonical form of an image
(R24 to R27, R121, R150, R192). -/

namespace Sys2Proof.Machine

/-! ### Every operation answers a truthful result -/

/-- The masks of R100 keep each index field within its width (R102). -/
theorem splitAddress_fit (g : Geometry) (v : Nat) : (splitAddress g v).fit g :=
  ⟨and_mask_lt _ _, and_mask_lt _ _, and_mask_lt _ _⟩

theorem Memory.readEntry_of_read {m : Memory} {a : Nat} {b : Byte} (h : m.read a = some b) :
    m.readEntry a = some (splitEntry b.toNat) :=
  (m.readEntry_eq_some_iff a _).2 ⟨b, h, rfl⟩

section walk
variable {g : Geometry} {mem disk : Memory} {p : TranslationPath} {pde pte : Entry} {a : Nat}

/-- Whatever step 6 and step 7 answer is truthful, on a path that tells both entries as MEM holds them. -/
theorem resolve_truthful (h : p.atTable g mem pde pte a) :
    (resolve mem disk p pte a).result.truthful g mem disk := by
  obtain ⟨hs, heq⟩ | ⟨hs, hv, ⟨hr, heq⟩ | ⟨v, hr, heq⟩⟩ | ⟨hs, hv, ⟨hr, heq⟩ | ⟨v, hr, heq⟩⟩ :=
    resolve_cases mem disk p pte a <;> rw [heq]
  · exact ⟨pde, pte, a, h, hs⟩
  · exact ⟨pde, pte, h, hs, hv, (disk.read_eq_none_iff a).1 hr⟩
  · exact ⟨pde, pte, a, h, hs, hv, hr⟩
  · exact ⟨pde, pte, h, hs, hv, (mem.read_eq_none_iff a).1 hr⟩
  · exact ⟨pde, pte, a, h, hs, hv, hr⟩

/-- A table lookup through a valid directory entry ends truthfully: out of range at its own address, or as the
resolution of the entry it read. -/
theorem lookupTable_truthful (h : p.atDirectory g mem pde) (hv : pde.valid = true) (hpte : p.pte = none)
    (hfinal : p.finalAddr = none) : (lookupTable g mem disk p pde).result.truthful g mem disk := by
  cases hr : mem.read (pteAddr g pde p.fields) with
  | none =>
    rw [lookupTable_of_none hr]
    exact ⟨pde, h, hv, hpte, hfinal, rfl, (mem.read_eq_none_iff _).1 hr⟩
  | some b =>
    rw [lookupTable_of_some hr]
    exact resolve_truthful ⟨h, hv, rfl, Memory.readEntry_of_read hr, rfl, rfl⟩

theorem walk_truthful (g : Geometry) (mem disk : Memory) (v : Nat) :
    (walk g mem disk v).result.truthful g mem disk := by
  have hfit := splitAddress_fit g v
  cases hr : mem.read (pdeAddr g (splitAddress g v)) with
  | none =>
    rw [walk_of_pde_none hr]
    exact ⟨hfit, rfl, rfl, rfl, rfl, (mem.read_eq_none_iff _).1 hr⟩
  | some b =>
    have hdir : TranslationPath.atDirectory g mem (.withPde (.start (splitAddress g v)) (splitEntry b.toNat))
        (splitEntry b.toNat) := ⟨hfit, rfl, Memory.readEntry_of_read hr⟩
    cases hv : (splitEntry b.toNat).valid with
    | false =>
      rw [walk_of_pde_invalid hr hv]
      exact ⟨_, hdir, hv, rfl, rfl⟩
    | true =>
      rw [walk_of_pde_valid hr hv]
      exact lookupTable_truthful hdir hv rfl rfl

end walk

/-- The result of every operation is what the images say (R121, R150). -/
theorem perform_truthful (g : Geometry) (mem disk : Memory) (i : Instr) :
    (perform g mem disk i).result.truthful g mem disk := by
  cases i with
  | translate v => exact walk_truthful g mem disk v
  | decompose v => exact splitAddress_fit g v
  | decodeEntry a => trivial
  | reserved a => trivial

/-! ### The invariant under the two halves of a step -/

/-- Taking the first request off the queue keeps the invariant. -/
theorem State.Inv.dequeue {s : State} (h : s.Inv) {r : Request} {rest : List Request}
    (hp : s.pending = r :: rest) : State.Inv { s with pending := rest } where
  legal := h.legal
  memWf := h.memWf
  diskWf := h.diskWf
  fits := fun q hq => h.fits q (hp ▸ List.mem_cons_of_mem r hq)
  truthful := h.truthful

/-- Delivering a truthful result keeps the invariant. -/
theorem State.Inv.deliver {s : State} (h : s.Inv) {r : Result} (hr : r.truthful s.geom s.mem s.disk) :
    (s.deliver r).Inv where
  legal := h.legal
  memWf := h.memWf
  diskWf := h.diskWf
  fits := h.fits
  truthful := fun q hq =>
    (List.mem_append.1 hq).elim (h.truthful q) fun hq => List.mem_singleton.1 hq ▸ hr

/-! ### Runs -/

/-- A step of a legal instance with a request pending, in the fields it writes. -/
theorem step_eq_deliver {s : State} {r : Request} {rest : List Request} (hl : s.legal = true)
    (hp : s.pending = r :: rest) :
    step s = .next (State.deliver { s with pending := rest } (perform s.geom s.mem s.disk (decode r)).result) := by
  rw [step_of_pending hl hp, exec_eq_deliver]

/-- The results of a sequence of requests on the images of a state, in request order. -/
def State.resultsOf (s : State) (rs : List Request) : List Result :=
  rs.map fun r => (perform s.geom s.mem s.disk (decode r)).result

/-- A run of all pending requests delivers the result that each has on the launch state: no step before it
changed what an operation sees (R26). -/
theorem runSteps_pending (rs : List Request) : ∀ {s : State}, s.legal = true → s.pending = rs →
    runSteps rs.length s = .next { s with pending := [], results := s.results ++ s.resultsOf rs } := by
  induction rs with
  | nil =>
    intro s _ hp
    cases s
    cases hp
    simp [runSteps, State.resultsOf]
  | cons r rest ih =>
    intro s hl hp
    have hrun := ih (s := State.deliver { s with pending := rest } (perform s.geom s.mem s.disk (decode r)).result)
      hl rfl
    rw [List.length_cons, runSteps_succ (step_eq_deliver hl hp), hrun]
    simp [State.deliver, State.resultsOf]

/-! ### The canonical form of an image -/

theorem cellAt_cons_self (k : Nat) (b : Byte) (rest : List Host.Cell) : cellAt ((k, b) :: rest) k = b := by
  simp [cellAt]

theorem cellAt_cons_of_ne {k a : Nat} (h : k ≠ a) (b : Byte) (rest : List Host.Cell) :
    cellAt ((k, b) :: rest) a = cellAt rest a := by
  simp [cellAt, h]

theorem cellsWf_cons_iff {size lo k : Nat} {b : Byte} {rest : List Host.Cell} :
    cellsWf size lo ((k, b) :: rest) = true ↔
      lo ≤ k ∧ k < size ∧ b ≠ Memory.unlisted ∧ cellsWf size (k + 1) rest = true := by
  simp only [cellsWf, Bool.and_eq_true, decide_eq_true_eq, and_assoc]

/-- Below its lower bound a canonical cell list lists nothing. -/
theorem cellAt_of_lt {size a : Nat} : ∀ {lo : Nat} {cells : List Host.Cell},
    cellsWf size lo cells = true → a < lo → cellAt cells a = Memory.unlisted
  | _, [], _, _ => rfl
  | _, (k, b) :: rest, hw, ha => by
    obtain ⟨hlo, -, -, hrest⟩ := cellsWf_cons_iff.1 hw
    rw [cellAt_cons_of_ne (by omega)]
    exact cellAt_of_lt hrest (by omega)

/-- The first cell of a canonical list is at the least index that reads as listed: a canonical list with the
same bytes has no later lower bound. -/
theorem lowerBound_le_of_cellAt_eq {size lo lo' k : Nat} {b : Byte} {rest cells' : List Host.Cell}
    (hw : cellsWf size lo ((k, b) :: rest) = true) (hw' : cellsWf size lo' cells' = true)
    (h : ∀ a < size, cellAt ((k, b) :: rest) a = cellAt cells' a) : lo' ≤ k := by
  obtain ⟨-, hk, hb, -⟩ := cellsWf_cons_iff.1 hw
  by_contra hlt
  apply hb
  calc b = cellAt ((k, b) :: rest) k := (cellAt_cons_self k b rest).symm
    _ = cellAt cells' k := h k hk
    _ = Memory.unlisted := cellAt_of_lt hw' (by omega)

/-- A canonical list that reads as unlisted everywhere is empty. -/
theorem cells_eq_nil_of_cellAt_eq {size lo : Nat} : ∀ {cells : List Host.Cell}, cellsWf size lo cells = true →
    (∀ a < size, cellAt cells a = Memory.unlisted) → cells = []
  | [], _, _ => rfl
  | (k, b) :: rest, hw, h => by
    obtain ⟨-, hk, hb, -⟩ := cellsWf_cons_iff.1 hw
    exact absurd (cellAt_cons_self k b rest ▸ h k hk) hb

/-- Canonical cell lists that give every index inside the image the same byte are equal: their first cells agree,
and up to that index both remainders list nothing. -/
theorem cells_eq_of_cellAt_eq {size : Nat} : ∀ {lo lo' : Nat} {cells cells' : List Host.Cell},
    cellsWf size lo cells = true → cellsWf size lo' cells' = true →
    (∀ a < size, cellAt cells a = cellAt cells' a) → cells = cells'
  | _, _, [], _, _, hw', h => (cells_eq_nil_of_cellAt_eq hw' fun a ha => (h a ha).symm).symm
  | _, _, (_, _) :: _, [], hw, _, h => cells_eq_nil_of_cellAt_eq hw h
  | _, _, (k, b) :: rest, (k', b') :: rest', hw, hw', h => by
    obtain ⟨-, hk, hb, hrest⟩ := cellsWf_cons_iff.1 hw
    obtain ⟨-, hk', hb', hrest'⟩ := cellsWf_cons_iff.1 hw'
    have hkk : k = k' := Nat.le_antisymm
      (lowerBound_le_of_cellAt_eq hw' (cellsWf_cons_iff.2 ⟨le_refl k, hk, hb, hrest⟩) fun a ha => (h a ha).symm)
      (lowerBound_le_of_cellAt_eq hw (cellsWf_cons_iff.2 ⟨le_refl k', hk', hb', hrest'⟩) h)
    subst hkk
    have hbb : b = b' := by simpa only [cellAt_cons_self] using h k hk
    have hrr : rest = rest' := cells_eq_of_cellAt_eq hrest hrest' fun a ha => by
      by_cases hak : k = a
      · rw [cellAt_of_lt hrest (by omega), cellAt_of_lt hrest' (by omega)]
      · simpa only [cellAt_cons_of_ne hak] using h a ha
    rw [hbb, hrr]

theorem Memory.cellAt_eq_of_read_eq {m m' : Memory} {a : Nat} (h : m.read a = m'.read a) (ha : a < m.size) :
    cellAt m.cells a = cellAt m'.cells a :=
  (((m'.read_eq_some_iff a _).1 (h ▸ (m.read_eq_some_iff a _).2 ⟨ha, rfl⟩)).2).symm

/-! ### The statements -/

/-- Settles O38: a step rests, or it takes a request off and delivers a result that is truthful by the exits of
the walk. -/
theorem stepKeepsInv : Obligations.StepKeepsInv := by
  intro s s' hinv hstep
  obtain ⟨-, ⟨-, rfl⟩ | ⟨r, rest, hp, rfl⟩⟩ := step_cases hstep
  · exact hinv
  · exact (hinv.dequeue hp).deliver (perform_truthful s.geom s.mem s.disk (decode r))

/-- Settles O8: every operation delivers a result and writes no other field. -/
theorem operationsChangeNoState : Obligations.OperationsChangeNoState := by
  intro i s s' hexec
  rw [exec_eq_deliver] at hexec
  cases hexec
  exact ⟨rfl, rfl, rfl, rfl, fun _ => rfl, fun _ => rfl, rfl, _, rfl⟩

/-- Settles O10, by induction on the pending requests (`runSteps_pending`). -/
theorem runDeliversOneResultPerRequest : Obligations.RunDeliversOneResultPerRequest := by
  intro s hl
  refine ⟨s.resultsOf s.pending, runSteps_pending s.pending hl rfl, List.length_map _, fun k r q hr hq => ?_⟩
  have hqr : (perform s.geom s.mem s.disk (decode r)).result = q := by
    simpa [State.resultsOf, hr] using hq
  rw [exec_eq_answered, hqr]

/-- Settles O36, from the uniqueness of canonical cell lists. -/
theorem canonicalImagesAreDeterminedByTheirBytes : Obligations.CanonicalImagesAreDeterminedByTheirBytes := by
  intro ⟨n, cells⟩ ⟨n', cells'⟩ hw hw' hsize hread
  obtain rfl : n = n' := hsize
  have hcells : cells = cells' :=
    cells_eq_of_cellAt_eq hw hw' fun a ha => Memory.cellAt_eq_of_read_eq (hread a) ha
  rw [hcells]

/-- Settles O5, from the two cases of a step of a legal instance. -/
theorem stepPerformsTheFirstPendingRequest : Obligations.StepPerformsTheFirstPendingRequest :=
  fun _ hl => ⟨fun _ _ _ hp hi => hi ▸ step_of_pending hl hp, step_of_idle hl⟩

end Sys2Proof.Machine
end

section
/-! SUPPORT. Where an operation reads and what its port carries: loaded images, the bounds of the three addresses,
the reads of each exit of a walk (R41 to R51, R74, R80 to R85, R153, R190). -/

namespace Sys2Proof

/-- A base whose low `n` bits are zero, with an index below `2^n`, stays below the next number's base. -/
theorem shiftLeft_add_lt {k m n i : Nat} (hk : k < m) (hi : i < 2 ^ n) : (k <<< n) + i < m <<< n := by
  rw [Nat.shiftLeft_eq, Nat.shiftLeft_eq]
  calc k * 2 ^ n + i < (k + 1) * 2 ^ n := by rw [Nat.succ_mul]; omega
    _ ≤ m * 2 ^ n := Nat.mul_le_mul_right _ hk

theorem lt_two_pow_bitlen (n : Nat) : n < 2 ^ bitlen n := by
  unfold bitlen
  split
  · simp [*]
  · exact Nat.lt_log2_self

namespace Machine

/-! ### Loaded images -/

/-- The cells of a byte sequence hold its bytes: what is left out is what an unlisted index reads as. -/
theorem cellAt_cellsFrom (bytes : List Byte) : ∀ k j,
    cellAt (cellsFrom k bytes) (k + j) = bytes[j]?.getD Memory.unlisted := by
  induction bytes with
  | nil => intro k j; simp [cellsFrom, cellAt]
  | cons b rest ih =>
    intro k j
    cases j with
    | zero =>
      by_cases hb : b = Memory.unlisted
      · simpa [cellsFrom, hb] using cellAt_of_lt (cellsFrom_wf rest (k + 1)) (Nat.lt_succ_self k)
      · simp [cellsFrom, hb, cellAt_cons_self]
    | succ j =>
      have hj : cellAt (cellsFrom (k + 1) rest) (k + (j + 1)) = rest[j]?.getD Memory.unlisted := by
        rw [← ih (k + 1) j, Nat.add_right_comm, Nat.add_assoc]
      by_cases hb : b = Memory.unlisted
      · simpa [cellsFrom, hb] using hj
      · simpa [cellsFrom, hb, cellAt_cons_of_ne (show k ≠ k + (j + 1) by omega)] using hj

theorem Memory.read_load (bytes : List Byte) (k : Nat) : (Memory.load bytes).read k = bytes[k]? := by
  have hcell : cellAt (Memory.load bytes).cells k = bytes[k]?.getD Memory.unlisted := by
    simpa [Memory.load] using cellAt_cellsFrom bytes 0 k
  by_cases hk : k < bytes.length
  · rw [List.getElem?_eq_getElem hk, Memory.read_eq_some_iff, hcell, List.getElem?_eq_getElem hk]
    exact ⟨hk, rfl⟩
  · rw [List.getElem?_eq_none (not_lt.1 hk), Memory.read_eq_none_iff]
    exact not_lt.1 hk

/-! ### The three addresses -/

/-- A 7-bit frame number and an index of `n` bits make an address of `7 + n` bits (R46). -/
theorem frame_shiftLeft_add_lt (e : Frame) {n i : Nat} (hi : i < 2 ^ n) : (e.toNat <<< n) + i < 2 ^ (7 + n) := by
  calc (e.toNat <<< n) + i < 2 ^ 7 <<< n := shiftLeft_add_lt e.isLt hi
    _ = 2 ^ (7 + n) := by rw [Nat.shiftLeft_eq, Nat.pow_add]

section bounds
variable {g : Geometry} {f : Fields} (hf : f.fit g) (e : Entry)
include hf

theorem Fields.fit.dirIndex_lt : f.dirIndex < 2 ^ g.dw := hf.1

theorem Fields.fit.tblIndex_lt : f.tblIndex < 2 ^ g.tw := hf.2.1

theorem Fields.fit.offset_lt : f.offset < 2 ^ g.ow := hf.2.2

theorem pdeAddr_lt : pdeAddr g f < g.pdbr + g.ndir := Nat.add_lt_add_left hf.dirIndex_lt _

theorem pteAddr_lt : pteAddr g e f < 2 ^ g.ptaw := frame_shiftLeft_add_lt e.frame hf.tblIndex_lt

theorem finalAddress_lt : finalAddress g e f < 2 ^ g.paw := frame_shiftLeft_add_lt e.frame hf.offset_lt

/-- Below the sentinel's page lie the pages of all other frames (R51). -/
theorem finalAddress_lt_of_ne_sentinel (he : e.frame ≠ sentinel) : finalAddress g e f < 0x7F <<< g.ow := by
  have hne : e.frame.toNat ≠ 0x7F := fun h => he (BitVec.eq_of_toNat_eq h)
  have hlt := e.frame.isLt
  exact shiftLeft_add_lt (by omega) hf.offset_lt

/-! `XW` is wide enough for every address computed (R46). -/

theorem finalAddress_lt_xw : finalAddress g e f < 2 ^ g.xw :=
  (finalAddress_lt hf e).trans_le (Nat.pow_le_pow_right two_pos (le_max_left _ _))

theorem pteAddr_lt_xw : pteAddr g e f < 2 ^ g.xw :=
  (pteAddr_lt hf e).trans_le (Nat.pow_le_pow_right two_pos (le_max_of_le_right (le_max_left _ _)))

theorem pdeAddr_lt_xw : pdeAddr g f < 2 ^ g.xw :=
  calc pdeAddr g f ≤ g.pdbr + g.ndir - 1 := Nat.le_sub_one_of_lt (pdeAddr_lt hf)
    _ < 2 ^ bitlen (g.pdbr + g.ndir - 1) := lt_two_pow_bitlen _
    _ ≤ 2 ^ g.xw := Nat.pow_le_pow_right two_pos (le_max_of_le_right (le_max_right _ _))

/-- `PDBR` is page-aligned (R9), so a directory no larger than a page adds its index into clear bits (R43). -/
theorem pdeAddr_eq_or (hg : g.legal = true) (hdw : g.dw ≤ g.ow) : pdeAddr g f = g.pdbr ||| f.dirIndex := by
  obtain ⟨-, -, -, -, k, hk⟩ := g.legal_iff.1 hg
  have hlt : f.dirIndex < 2 ^ g.ow := hf.dirIndex_lt.trans_le (Nat.pow_le_pow_right two_pos hdw)
  rw [pdeAddr, directoryBase, hk, Nat.two_pow_add_eq_or_of_lt hlt]

end bounds

theorem dvd_tableBase (g : Geometry) (f : Frame) : 2 ^ g.tw ∣ tableBase g f := by
  rw [tableBase, Nat.shiftLeft_eq]; exact Nat.dvd_mul_left _ _

theorem dvd_pageBase (g : Geometry) (f : Frame) : 2 ^ g.ow ∣ pageBase g f := by
  rw [pageBase, Nat.shiftLeft_eq]; exact Nat.dvd_mul_left _ _

/-! ### The arithmetic reading of the fields, the addresses and the two tests on an entry byte -/

theorem spec_fields_eq (g : Geometry) (v : Nat) : Spec.fields g v = splitAddress g v := by
  rw [Spec.fields, ← splitAddress_dirIndex_eq, ← splitAddress_tblIndex_eq, ← splitAddress_offset_eq]

theorem spec_pdeAddr_eq (g : Geometry) (v : Nat) : Spec.pdeAddr g v = pdeAddr g (splitAddress g v) := by
  rw [Spec.pdeAddr, spec_fields_eq, pdeAddr, directoryBase]

theorem spec_pteAddr_eq (g : Geometry) (P : Byte) (v : Nat) :
    Spec.pteAddr g P v = pteAddr g (splitEntry P.toNat) (splitAddress g v) := by
  rw [Spec.pteAddr, spec_fields_eq, pteAddr_eq, splitEntry_frame_toNat]

theorem splitEntry_valid_eq_true_iff (b : Byte) : (splitEntry b.toNat).valid = true ↔ ¬ b.toNat < 128 := by
  have hb := b.isLt
  rw [splitEntry_valid_eq, decide_eq_true_iff]
  omega

theorem splitEntry_valid_eq_false_iff (b : Byte) : (splitEntry b.toNat).valid = false ↔ b.toNat < 128 := by
  rw [← Bool.not_eq_true, splitEntry_valid_eq_true_iff, not_not]

theorem splitEntry_frame_eq_sentinel_iff (n : Nat) : (splitEntry n).frame = sentinel ↔ n % 128 = 127 := by
  rw [← BitVec.toNat_inj, splitEntry_frame_toNat]; rfl

/-! ### The exits of a walk -/

/-- The path of a walk that read the directory entry's byte `P`. -/
def directoryPath (g : Geometry) (v : Nat) (P : Byte) : TranslationPath :=
  (TranslationPath.start (splitAddress g v)).withPde (splitEntry P.toNat)

/-- The final address of a walk that read the table entry's byte `Q`. -/
def walkFinal (g : Geometry) (v : Nat) (Q : Byte) : Nat := finalAddress g (splitEntry Q.toNat) (splitAddress g v)

theorem spec_finalAddr_eq (g : Geometry) (Q : Byte) (v : Nat) : Spec.finalAddr g Q v = walkFinal g v Q := by
  rw [Spec.finalAddr, spec_fields_eq, walkFinal, finalAddress_eq, splitEntry_frame_toNat]

/-- The path of a walk that read both entries' bytes. -/
def tablePath (g : Geometry) (v : Nat) (P Q : Byte) : TranslationPath :=
  (directoryPath g v P).withPte (splitEntry Q.toNat) (walkFinal g v Q)

/-- The read of the directory entry. -/
def pdeRead (g : Geometry) (v : Nat) : Access := ⟨.mem, pdeAddr g (splitAddress g v)⟩

/-- The read of the table entry. -/
def pteRead (g : Geometry) (v : Nat) (P : Byte) : Access :=
  ⟨.mem, pteAddr g (splitEntry P.toNat) (splitAddress g v)⟩

/-- The walk reads `P`, which is valid, as the directory entry. -/
structure DirectoryRead (g : Geometry) (mem : Memory) (v : Nat) (P : Byte) : Prop where
  pde : mem.read (pdeAddr g (splitAddress g v)) = some P
  valid : (splitEntry P.toNat).valid = true

/-- The walk goes on to read `Q` as the table entry. -/
structure TableRead (g : Geometry) (mem : Memory) (v : Nat) (P Q : Byte) : Prop extends DirectoryRead g mem v P where
  pte : mem.read (pteAddr g (splitEntry P.toNat) (splitAddress g v)) = some Q

/-- The ways a walk ends (R133, R153), each with the bytes that lead there, its reads and its result. -/
inductive WalkExit (g : Geometry) (mem disk : Memory) (v : Nat) : Transaction → Prop where
  | pdeOutOfRange (hP : mem.read (pdeAddr g (splitAddress g v)) = none) : WalkExit g mem disk v
      ⟨[], .outOfRange .pde (pdeAddr g (splitAddress g v)) (.start (splitAddress g v))⟩
  | directoryFault {P : Byte} (hP : mem.read (pdeAddr g (splitAddress g v)) = some P)
      (hinvalid : (splitEntry P.toNat).valid = false) : WalkExit g mem disk v
      ⟨[pdeRead g v], .directoryFault (directoryPath g v P)⟩
  | pteOutOfRange {P : Byte} (hP : DirectoryRead g mem v P)
      (hQ : mem.read (pteAddr g (splitEntry P.toNat) (splitAddress g v)) = none) : WalkExit g mem disk v
      ⟨[pdeRead g v],
        .outOfRange .pte (pteAddr g (splitEntry P.toNat) (splitAddress g v)) (directoryPath g v P)⟩
  | tableFault {P Q : Byte} (hQ : TableRead g mem v P Q) (hs : (splitEntry Q.toNat).frame = sentinel) :
      WalkExit g mem disk v ⟨[pdeRead g v, pteRead g v P], .tableFault (tablePath g v P Q)⟩
  | diskOutOfRange {P Q : Byte} (hQ : TableRead g mem v P Q) (hs : (splitEntry Q.toNat).frame ≠ sentinel)
      (hv : (splitEntry Q.toNat).valid = false) (hr : disk.read (walkFinal g v Q) = none) : WalkExit g mem disk v
      ⟨[pdeRead g v, pteRead g v P], .outOfRange .dataDisk (walkFinal g v Q) (tablePath g v P Q)⟩
  | diskResolved {P Q b : Byte} (hQ : TableRead g mem v P Q) (hs : (splitEntry Q.toNat).frame ≠ sentinel)
      (hv : (splitEntry Q.toNat).valid = false) (hr : disk.read (walkFinal g v Q) = some b) : WalkExit g mem disk v
      ⟨[pdeRead g v, pteRead g v P, ⟨.disk, walkFinal g v Q⟩], .resolved .disk (tablePath g v P Q) b⟩
  | memOutOfRange {P Q : Byte} (hQ : TableRead g mem v P Q) (hs : (splitEntry Q.toNat).frame ≠ sentinel)
      (hv : (splitEntry Q.toNat).valid = true) (hr : mem.read (walkFinal g v Q) = none) : WalkExit g mem disk v
      ⟨[pdeRead g v, pteRead g v P], .outOfRange .dataMem (walkFinal g v Q) (tablePath g v P Q)⟩
  | memResolved {P Q b : Byte} (hQ : TableRead g mem v P Q) (hs : (splitEntry Q.toNat).frame ≠ sentinel)
      (hv : (splitEntry Q.toNat).valid = true) (hr : mem.read (walkFinal g v Q) = some b) : WalkExit g mem disk v
      ⟨[pdeRead g v, pteRead g v P, ⟨.mem, walkFinal g v Q⟩], .resolved .memory (tablePath g v P Q) b⟩

/-- A walk that reads both entries ends as the resolution of its final address does. -/
theorem walk_of_tableRead {g : Geometry} {mem disk : Memory} {v : Nat} {P Q : Byte} (h : TableRead g mem v P Q) :
    walk g mem disk v =
      let t := resolve mem disk (tablePath g v P Q) (splitEntry Q.toNat) (walkFinal g v Q)
      ⟨pdeRead g v :: pteRead g v P :: t.reads, t.result⟩ := by
  rw [walk_of_pde_valid h.pde h.valid, lookupTable_of_some h.pte]
  rfl

/-- Every walk takes one of the exits. -/
theorem walkExit_walk (g : Geometry) (mem disk : Memory) (v : Nat) : WalkExit g mem disk v (walk g mem disk v) := by
  cases hP : mem.read (pdeAddr g (splitAddress g v)) with
  | none => rw [walk_of_pde_none hP]; exact .pdeOutOfRange hP
  | some P =>
    cases hv : (splitEntry P.toNat).valid with
    | false => rw [walk_of_pde_invalid hP hv]; exact .directoryFault hP hv
    | true =>
      have hdir : DirectoryRead g mem v P := ⟨hP, hv⟩
      cases hQ : mem.read (pteAddr g (splitEntry P.toNat) (splitAddress g v)) with
      | none => rw [walk_of_pde_valid hP hv, lookupTable_of_none hQ]; exact .pteOutOfRange hdir hQ
      | some Q =>
        have htbl : TableRead g mem v P Q := ⟨hdir, hQ⟩
        rw [walk_of_tableRead htbl]
        obtain ⟨hs, heq⟩ | ⟨hs, hv, ⟨hr, heq⟩ | ⟨b, hr, heq⟩⟩ | ⟨hs, hv, ⟨hr, heq⟩ | ⟨b, hr, heq⟩⟩ :=
          resolve_cases mem disk (tablePath g v P Q) (splitEntry Q.toNat) (walkFinal g v Q) <;> rw [heq]
        · exact .tableFault htbl hs
        · exact .diskOutOfRange htbl hs hv hr
        · exact .diskResolved htbl hs hv hr
        · exact .memOutOfRange htbl hs hv hr
        · exact .memResolved htbl hs hv hr

/-! ### The reads of a walk -/

section reads
variable {g : Geometry} {mem disk : Memory} {v : Nat} {t : Transaction}

/-- The reads are those of the directory entry, the table entry and the byte at the final address, as far as the walk
goes (R45). -/
theorem WalkExit.reads_prefix (h : WalkExit g mem disk v t) :
    ∃ P Q space, t.reads <+: [pdeRead g v, pteRead g v P, ⟨space, walkFinal g v Q⟩] := by
  cases h with
  | pdeOutOfRange => exact ⟨0, 0, .mem, _, rfl⟩
  | @directoryFault P => exact ⟨P, 0, .mem, _, rfl⟩
  | @pteOutOfRange P => exact ⟨P, 0, .mem, _, rfl⟩
  | @tableFault P Q => exact ⟨P, Q, .mem, _, rfl⟩
  | @diskOutOfRange P Q => exact ⟨P, Q, .disk, _, rfl⟩
  | @diskResolved P Q => exact ⟨P, Q, .disk, _, rfl⟩
  | @memOutOfRange P Q => exact ⟨P, Q, .mem, _, rfl⟩
  | @memResolved P Q => exact ⟨P, Q, .mem, _, rfl⟩

/-- R190's table, read off the exits. -/
theorem WalkExit.countIn_reads (h : WalkExit g mem disk v t) :
    (Spec.countIn .mem t.reads, Spec.countIn .disk t.reads) =
      Spec.readCounts t.result.status t.result.record.oorSite := by
  cases h <;> rfl

theorem walkReads_of_pde_none (hP : mem.read (pdeAddr g (splitAddress g v)) = none) :
    Spec.walkReads g mem disk v = [] := by
  simp only [Spec.walkReads, spec_pdeAddr_eq, hP]

theorem walkReads_of_pde_invalid {P : Byte} (hP : mem.read (pdeAddr g (splitAddress g v)) = some P)
    (hv : (splitEntry P.toNat).valid = false) : Spec.walkReads g mem disk v = [pdeRead g v] := by
  simp only [Spec.walkReads, spec_pdeAddr_eq, hP, if_pos ((splitEntry_valid_eq_false_iff P).1 hv), pdeRead]

theorem walkReads_of_pte_none {P : Byte} (hP : DirectoryRead g mem v P)
    (hQ : mem.read (pteAddr g (splitEntry P.toNat) (splitAddress g v)) = none) :
    Spec.walkReads g mem disk v = [pdeRead g v] := by
  simp only [Spec.walkReads, spec_pdeAddr_eq, hP.pde, if_neg ((splitEntry_valid_eq_true_iff P).1 hP.valid),
    spec_pteAddr_eq, hQ, pdeRead]

/-- The third read of a walk, where there is one, by the tests of step 6 and step 7 on the table entry's byte. -/
def dataReads (g : Geometry) (mem disk : Memory) (v : Nat) (Q : Byte) : List Access :=
  if Q.toNat % 128 = 127 then []
  else if Q.toNat < 128 then
    if Spec.finalAddr g Q v < disk.size then [⟨.disk, Spec.finalAddr g Q v⟩] else []
  else
    if Spec.finalAddr g Q v < mem.size then [⟨.mem, Spec.finalAddr g Q v⟩] else []

theorem walkReads_of_tableRead {P Q : Byte} (h : TableRead g mem v P Q) :
    Spec.walkReads g mem disk v = pdeRead g v :: pteRead g v P :: dataReads g mem disk v Q := by
  simp only [Spec.walkReads, spec_pdeAddr_eq, h.pde, if_neg ((splitEntry_valid_eq_true_iff P).1 h.valid),
    spec_pteAddr_eq, h.pte, dataReads, pdeRead, pteRead]

theorem dataReads_of_sentinel {Q : Byte} (hs : (splitEntry Q.toNat).frame = sentinel) :
    dataReads g mem disk v Q = [] :=
  if_pos ((splitEntry_frame_eq_sentinel_iff _).1 hs)

theorem dataReads_of_invalid {Q : Byte} (hs : (splitEntry Q.toNat).frame ≠ sentinel)
    (hv : (splitEntry Q.toNat).valid = false) :
    dataReads g mem disk v Q = if walkFinal g v Q < disk.size then [⟨.disk, walkFinal g v Q⟩] else [] := by
  rw [dataReads, if_neg (mt (splitEntry_frame_eq_sentinel_iff _).2 hs),
    if_pos ((splitEntry_valid_eq_false_iff Q).1 hv), spec_finalAddr_eq]

theorem dataReads_of_valid {Q : Byte} (hs : (splitEntry Q.toNat).frame ≠ sentinel)
    (hv : (splitEntry Q.toNat).valid = true) :
    dataReads g mem disk v Q = if walkFinal g v Q < mem.size then [⟨.mem, walkFinal g v Q⟩] else [] := by
  rw [dataReads, if_neg (mt (splitEntry_frame_eq_sentinel_iff _).2 hs),
    if_neg ((splitEntry_valid_eq_true_iff Q).1 hv), spec_finalAddr_eq]

/-- The reads of each exit are those of the spec's algorithm (R45). -/
theorem WalkExit.reads_eq (h : WalkExit g mem disk v t) : t.reads = Spec.walkReads g mem disk v := by
  cases h with
  | pdeOutOfRange hP => rw [walkReads_of_pde_none hP]
  | directoryFault hP hinvalid => rw [walkReads_of_pde_invalid hP hinvalid]
  | pteOutOfRange hP hQ => rw [walkReads_of_pte_none hP hQ]
  | tableFault hQ hs => rw [walkReads_of_tableRead hQ, dataReads_of_sentinel hs]
  | diskOutOfRange hQ hs hv hr =>
    have hsize := (disk.read_eq_none_iff _).1 hr
    rw [walkReads_of_tableRead hQ, dataReads_of_invalid hs hv, if_neg (not_lt.2 hsize)]
  | diskResolved hQ hs hv hr =>
    obtain ⟨hsize, -⟩ := (disk.read_eq_some_iff _ _).1 hr
    rw [walkReads_of_tableRead hQ, dataReads_of_invalid hs hv, if_pos hsize]
  | memOutOfRange hQ hs hv hr =>
    have hsize := (mem.read_eq_none_iff _).1 hr
    rw [walkReads_of_tableRead hQ, dataReads_of_valid hs hv, if_neg (not_lt.2 hsize)]
  | memResolved hQ hs hv hr =>
    obtain ⟨hsize, -⟩ := (mem.read_eq_some_iff _ _).1 hr
    rw [walkReads_of_tableRead hQ, dataReads_of_valid hs hv, if_pos hsize]

end reads

/-- Every MEM address read is below `2^XW`, and every DISK address below `2^PAW` (R46). -/
theorem walk_reads_fit {g : Geometry} {mem disk : Memory} {v : Nat} {a : Access} (ha : a ∈ (walk g mem disk v).reads) :
    a.addr < 2 ^ g.xw ∧ (a.space = .disk → a.addr < 2 ^ g.paw) := by
  have hf := splitAddress_fit g v
  obtain ⟨P, Q, space, hprefix⟩ := (walkExit_walk g mem disk v).reads_prefix
  have hmem := hprefix.subset ha
  simp only [List.mem_cons, List.not_mem_nil, or_false] at hmem
  obtain rfl | rfl | rfl := hmem
  · exact ⟨pdeAddr_lt_xw hf, nofun⟩
  · exact ⟨pteAddr_lt_xw hf _, nofun⟩
  · exact ⟨finalAddress_lt_xw hf _, fun _ => finalAddress_lt hf _⟩

/-! ### What a truthful result carries -/

theorem Result.eq_outOfRange_of_status {r : Result} (h : r.status = .outOfRange) :
    ∃ site a p, r = .outOfRange site a p := by
  cases r with
  | outOfRange site a p => exact ⟨site, a, p, rfl⟩
  | resolved loc => cases loc <;> cases h
  | decomposed | decodedEntry | directoryFault | tableFault | illegalOp => cases h

theorem Result.eq_outOfRange_of_oor {r : Result} {x : Site × Nat} (h : r.oor = some x) :
    ∃ p, r = .outOfRange x.1 x.2 p := by
  cases r with
  | outOfRange site a p => cases h; exact ⟨p, rfl⟩
  | decomposed | decodedEntry | resolved | directoryFault | tableFault | illegalOp => cases h

/-- The index fields and the final address of a path fit their ports (R80). -/
structure TranslationPath.FitsPort (g : Geometry) (p : TranslationPath) : Prop where
  fields : p.fields.fit g
  finalAddr : ∀ a, p.finalAddr = some a → a < 2 ^ g.paw

section truthful
variable {g : Geometry} {mem disk : Memory} {p : TranslationPath} {pde pte : Entry} {a : Nat} {r : Result}

theorem TranslationPath.fitsPort_of_finalAddr_none (hf : p.fields.fit g) (hfinal : p.finalAddr = none) :
    p.FitsPort g := ⟨hf, by simp [hfinal]⟩

theorem TranslationPath.atTable.fit (h : p.atTable g mem pde pte a) : p.fields.fit g := by
  obtain ⟨⟨hf, -⟩, -⟩ := h
  exact hf

theorem TranslationPath.atTable.eq_finalAddress (h : p.atTable g mem pde pte a) : a = finalAddress g pte p.fields := by
  obtain ⟨-, -, -, -, -, ha⟩ := h
  exact ha

theorem TranslationPath.atTable.finalAddr_eq (h : p.atTable g mem pde pte a) : p.finalAddr = some a := by
  obtain ⟨-, -, -, -, hfinal, -⟩ := h
  exact hfinal

theorem TranslationPath.atTable.pte_eq (h : p.atTable g mem pde pte a) : p.pte = some pte := by
  obtain ⟨-, -, hpte, -⟩ := h
  exact hpte

theorem TranslationPath.atTable.lt_paw (h : p.atTable g mem pde pte a) : a < 2 ^ g.paw :=
  h.eq_finalAddress ▸ finalAddress_lt h.fit pte

theorem TranslationPath.atTable.lt_xw (h : p.atTable g mem pde pte a) : a < 2 ^ g.xw :=
  h.eq_finalAddress ▸ finalAddress_lt_xw h.fit pte

theorem TranslationPath.atTable.lt_sentinelPage (h : p.atTable g mem pde pte a) (hs : pte.frame ≠ sentinel) :
    a < 0x7F <<< g.ow :=
  h.eq_finalAddress ▸ finalAddress_lt_of_ne_sentinel h.fit pte hs

theorem TranslationPath.atTable.fitsPort (h : p.atTable g mem pde pte a) : p.FitsPort g :=
  ⟨h.fit, fun _ ha => Option.some.inj (h.finalAddr_eq.symm.trans ha) ▸ h.lt_paw⟩

theorem Result.truthful.path_fitsPort : ∀ {r : Result}, r.truthful g mem disk → r.path = some p → p.FitsPort g
  | .resolved .memory _ _, ⟨_, _, _, h, _⟩, rfl => h.fitsPort
  | .resolved .disk _ _, ⟨_, _, _, h, _⟩, rfl => h.fitsPort
  | .directoryFault _, ⟨_, ⟨hf, _⟩, _, _, hfinal⟩, rfl => TranslationPath.fitsPort_of_finalAddr_none hf hfinal
  | .tableFault _, ⟨_, _, _, h, _⟩, rfl => h.fitsPort
  | .outOfRange .pde _ _, ⟨hf, _, _, hfinal, _⟩, rfl => TranslationPath.fitsPort_of_finalAddr_none hf hfinal
  | .outOfRange .pte _ _, ⟨_, ⟨hf, _⟩, _, _, hfinal, _⟩, rfl => TranslationPath.fitsPort_of_finalAddr_none hf hfinal
  | .outOfRange .dataMem _ _, ⟨_, _, h, _⟩, rfl => h.fitsPort
  | .outOfRange .dataDisk _ _, ⟨_, _, h, _⟩, rfl => h.fitsPort

theorem Result.truthful.fields_fit {f : Fields} (h : r.truthful g mem disk) (hf : r.fields = some f) : f.fit g := by
  cases r with
  | decomposed f' => exact Option.some.inj hf ▸ h
  | decodedEntry | illegalOp => cases hf
  | resolved | directoryFault | tableFault | outOfRange => cases hf; exact (h.path_fitsPort rfl).fields

/-- The address of every site fits the MEM port (R46). -/
theorem Result.truthful.oor_lt_xw {x : Site × Nat} (h : r.truthful g mem disk) (hx : r.oor = some x) :
    x.2 < 2 ^ g.xw := by
  obtain ⟨site, a⟩ := x
  obtain ⟨p, rfl⟩ := Result.eq_outOfRange_of_oor hx
  cases site with
  | pde => obtain ⟨hf, -, -, -, rfl, -⟩ := h; exact pdeAddr_lt_xw hf
  | pte => obtain ⟨pde, ⟨hf, -⟩, -, -, -, rfl, -⟩ := h; exact pteAddr_lt_xw hf pde
  | dataMem => obtain ⟨_, _, h, -⟩ := h; exact h.lt_xw
  | dataDisk => obtain ⟨_, _, h, -⟩ := h; exact h.lt_xw

/-- On images of nominal size no site's address is past the end of the image it is read from (R49). -/
theorem Result.truthful.not_nominal {site : Site} (h : (Result.outOfRange site a p).truthful g mem disk) :
    ¬ Spec.nominal g mem disk := by
  intro ⟨hmem, hdisk⟩
  obtain ⟨hpaw, hptaw, hpdbr⟩ : 2 ^ g.paw ≤ mem.size ∧ 2 ^ g.ptaw ≤ mem.size ∧ g.pdbr + g.ndir ≤ mem.size := by
    simpa only [max_le_iff] using hmem
  cases site with
  | pde =>
    obtain ⟨hf, -, -, -, rfl, hsize⟩ := h
    exact absurd ((pdeAddr_lt hf).trans_le hpdbr) (not_lt.2 hsize)
  | pte =>
    obtain ⟨pde, ⟨hf, -⟩, -, -, -, rfl, hsize⟩ := h
    exact absurd ((pteAddr_lt hf pde).trans_le hptaw) (not_lt.2 hsize)
  | dataMem =>
    obtain ⟨_, _, h, -, -, hsize⟩ := h
    exact absurd (h.lt_paw.trans_le hpaw) (not_lt.2 hsize)
  | dataDisk =>
    obtain ⟨_, _, h, -, -, hsize⟩ := h
    exact absurd (h.lt_paw.trans_le hdisk) (not_lt.2 hsize)

end truthful

theorem truthful_of_walk_eq {g : Geometry} {mem disk : Memory} {v : Nat} {r : Result}
    (h : (walk g mem disk v).result = r) : r.truthful g mem disk :=
  h ▸ walk_truthful g mem disk v

theorem walk_ne_outOfRange_of_nominal {g : Geometry} {mem disk : Memory} (hn : Spec.nominal g mem disk) (v : Nat) :
    (walk g mem disk v).result.status ≠ .outOfRange := by
  intro hst
  obtain ⟨site, a, p, hr⟩ := Result.eq_outOfRange_of_status hst
  exact (truthful_of_walk_eq hr).not_nominal hn

/-- 4096 bytes are the nominal size of either image of the reference geometry (R10). -/
theorem nominal_reference {mem disk : Memory} (hmem : 4096 ≤ mem.size) (hdisk : 4096 ≤ disk.size) :
    Spec.nominal Geometry.reference mem disk :=
  ⟨le_trans (by decide) hmem, le_trans (by decide) hdisk⟩

/-! ### The numbers on the port -/

theorem Status.code_toNat_lt (s : Status) : s.code.toNat < 7 := by
  cases s <;> decide

section driven
variable {α β : Type} {number : α → Nat} {n : Nat}

/-- A driven field is below a positive bound when its number is, wherever the field is present (R83). -/
theorem driven_lt {o : Option α} (hn : 0 < n) (h : ∀ x, o = some x → number x < n) : driven number o < n := by
  cases o with
  | none => exact hn
  | some x => exact h x rfl

theorem driven_map_lt {k : β → α} {o : Option β} (hn : 0 < n) (h : ∀ y, o = some y → number (k y) < n) :
    driven number (o.map k) < n :=
  driven_lt hn fun _ hx => by
    obtain ⟨y, hy, rfl⟩ := Option.map_eq_some_iff.1 hx
    exact h y hy

theorem driven_bool_lt (o : Option Bool) : driven Bool.toNat o < 2 :=
  driven_lt two_pos fun b _ => b.toNat_lt

theorem driven_bitVec_lt {w : Nat} (o : Option (BitVec w)) : driven BitVec.toNat o < 2 ^ w :=
  driven_lt (Nat.two_pow_pos w) fun b _ => b.isLt

end driven

/-- The port numbers of a truthful result fit the widths of R80 and R85. -/
theorem Result.truthful.port_fits {g : Geometry} {mem disk : Memory} {r : Result} (h : r.truthful g mem disk) :
    let c := r.record.port
    c.status < 7 ∧ c.dirIndex < 2 ^ g.dw ∧ c.tblIndex < 2 ^ g.tw ∧ c.offset < 2 ^ g.ow ∧
    c.pdeValid < 2 ∧ c.pdeFrame < 2 ^ 7 ∧ c.pteValid < 2 ∧ c.pteFrame < 2 ^ 7 ∧ c.finalAddr < 2 ^ g.paw ∧
    c.value < 2 ^ 8 ∧ c.oorSite < 4 ∧ c.oorAddr < 2 ^ g.xw ∧ c.valid < 2 ∧ c.frame < 2 ^ 7 := by
  have hfinal : ∀ a, r.path.bind TranslationPath.finalAddr = some a → a < 2 ^ g.paw := fun a ha => by
    obtain ⟨p, hp, hpa⟩ := Option.bind_eq_some_iff.1 ha
    exact (h.path_fitsPort hp).finalAddr a hpa
  refine ⟨Status.code_toNat_lt _, ?dirIndex, ?tblIndex, ?offset, driven_bool_lt _, driven_bitVec_lt _,
    driven_bool_lt _, driven_bitVec_lt _, driven_lt (Nat.two_pow_pos _) hfinal, driven_bitVec_lt _,
    driven_lt (by decide) fun site _ => site.code.isLt, ?oorAddr, driven_bool_lt _, driven_bitVec_lt _⟩
  case dirIndex => exact driven_map_lt (Nat.two_pow_pos _) fun f hf => (h.fields_fit hf).dirIndex_lt
  case tblIndex => exact driven_map_lt (Nat.two_pow_pos _) fun f hf => (h.fields_fit hf).tblIndex_lt
  case offset => exact driven_map_lt (Nat.two_pow_pos _) fun f hf => (h.fields_fit hf).offset_lt
  case oorAddr => exact driven_map_lt (Nat.two_pow_pos _) fun _ hx => h.oor_lt_xw hx

/-! ### The statements -/

/-- Settles O24: the exits of a walk carry their reads; the other operations read nothing. -/
theorem readsOfEachOutcome : Obligations.ReadsOfEachOutcome := by
  refine ⟨fun g mem disk v => ⟨(walkExit_walk g mem disk v).reads_eq, ?_⟩, fun g mem disk i => ?_⟩
  · obtain ⟨P, Q, space, hprefix⟩ := (walkExit_walk g mem disk v).reads_prefix
    exact hprefix.length_le
  · cases i with
    | translate v => exact (walkExit_walk g mem disk v).countIn_reads
    | decompose | decodeEntry | reserved => rfl

/-- Settles O26, from the bounds of the three addresses. -/
theorem nominalImagesAreNeverOutOfRange : Obligations.NominalImagesAreNeverOutOfRange := by
  refine ⟨fun g mem disk v hn => walk_ne_outOfRange_of_nominal hn v, fun g v f => ?_,
    fun mem disk v hmem hdisk => ?_, rfl⟩
  · have hf := splitAddress_fit g v
    exact ⟨Nat.le_sub_one_of_lt hf.dirIndex_lt, Nat.le_sub_one_of_lt (frame_shiftLeft_add_lt f hf.tblIndex_lt),
      Nat.le_sub_one_of_lt (frame_shiftLeft_add_lt f hf.offset_lt)⟩
  · exact walk_ne_outOfRange_of_nominal (nominal_reference hmem hdisk) v

/-- Settles O27: a truthful RESOLVED result has a table entry whose frame is not the sentinel. -/
theorem sentinelPageIsNeverData : Obligations.SentinelPageIsNeverData := by
  intro g mem disk v loc p b hr
  have htruth := truthful_of_walk_eq hr
  cases loc with
  | memory =>
    obtain ⟨pde, pte, a, h, hs, -, hread⟩ := htruth
    exact ⟨a, h.finalAddr_eq, h.lt_sentinelPage hs, fun _ => hread, nofun⟩
  | disk =>
    obtain ⟨pde, pte, a, h, hs, -, hread⟩ := htruth
    exact ⟨a, h.finalAddr_eq, h.lt_sentinelPage hs, nofun, fun _ => hread⟩

/-- Settles O29: each index is below the low bits that its base leaves clear. -/
theorem addressesAreConcatenations : Obligations.AddressesAreConcatenations := by
  intro g v e
  have hf := splitAddress_fit g v
  exact ⟨Nat.shiftLeft_add_eq_or_of_lt hf.tblIndex_lt _, dvd_tableBase g e.frame,
    Nat.shiftLeft_add_eq_or_of_lt hf.offset_lt _, dvd_pageBase g e.frame, rfl, pdeAddr_eq_or hf⟩

/-- Settles O33, from the truth of the result at each site. -/
theorem outOfRangeNamesTheFailingRead : Obligations.OutOfRangeNamesTheFailingRead := by
  intro g mem disk v site a p hr
  have htruth := truthful_of_walk_eq hr
  refine ⟨rfl, ?_⟩
  cases site with
  | pde =>
    obtain ⟨-, -, -, -, ha, hsize⟩ := htruth
    exact ⟨ha, hsize⟩
  | pte =>
    obtain ⟨pde, ⟨-, hpde, -⟩, hv, -, -, ha, hsize⟩ := htruth
    exact ⟨pde, hpde, hv, ha, hsize⟩
  | dataMem =>
    obtain ⟨pde, pte, h, hs, hv, hsize⟩ := htruth
    exact ⟨h.finalAddr_eq, hsize, pte, h.pte_eq, hv, hs⟩
  | dataDisk =>
    obtain ⟨pde, pte, h, hs, hv, hsize⟩ := htruth
    exact ⟨h.finalAddr_eq, hsize, pte, h.pte_eq, hv, hs⟩

/-- Settles O34: the port carries a truthful result, and a walk's reads are at the three bounded addresses. -/
theorem portNumbersFitTheirWidths : Obligations.PortNumbersFitTheirWidths := by
  intro g mem disk i
  refine ⟨(perform_truthful g mem disk i).port_fits, ?_⟩
  cases i with
  | translate v => exact ⟨fun _ ha _ => (walk_reads_fit ha).1, fun _ ha => (walk_reads_fit ha).2⟩
  | decompose | decodeEntry | reserved => exact ⟨nofun, nofun⟩

/-- Settles O35: what the loader leaves unlisted reads as the byte it had. -/
theorem loadedByteKIsElementK : Obligations.LoadedByteKIsElementK :=
  fun bytes => ⟨rfl, Memory.read_load bytes⟩

end Machine
end Sys2Proof
end

section
/-! SUPPORT. Requests in words and in text, and what a result says by its operation and outcome
(R71, R75 to R88, R110, R150). -/

namespace Sys2Proof

/-! ### A request and the operation it selects -/

theorem Instr.wf_iff (vin : Nat) (i : Instr) : i.wf vin = true ↔ i.arg < 2 ^ vin := by
  cases i <;> exact decide_eq_true_iff

theorem decode_encode (i : Instr) : decode (encode i) = i := by
  cases i with
  | translate v => exact Laws.RequestRoundTrip.translate v
  | decompose v => exact Laws.RequestRoundTrip.decompose v
  | decodeEntry a => exact Laws.RequestRoundTrip.decodeEntry a
  | reserved a => exact Laws.RequestRoundTrip.reserved a

/-- The map of R77 is complete: each of the four codes is the code of one operation. -/
theorem encode_decode (r : Request) : encode (decode r) = r := by
  obtain ⟨op, arg⟩ := r
  have hop : op = 0b00#2 ∨ op = 0b01#2 ∨ op = 0b10#2 ∨ op = 0b11#2 := by decide +revert
  obtain rfl | rfl | rfl | rfl := hop <;> rfl

/-! ### Request words -/

theorem Request.word_eq (vin : Nat) (r : Request) : r.word vin = r.arg + 2 ^ vin * r.op.toNat := by
  rw [Request.word, concat_eq, add_comm, mul_comm]

/-- A word with a 2-bit code above a `VIN`-bit argument has `VIN + 2` bits (R79). -/
theorem Request.word_lt {vin : Nat} {r : Request} (h : r.arg < 2 ^ vin) : r.word vin < 2 ^ (vin + 2) :=
  calc r.word vin < 4 <<< vin := shiftLeft_add_lt r.op.isLt h
    _ = 2 ^ (vin + 2) := by rw [Nat.shiftLeft_eq, pow_add, mul_comm]; rfl

/-- The word of a request that fits the port has the code as its quotient and the argument as its remainder. -/
theorem Request.word_eq_iff {vin w : Nat} {r : Request} :
    r.arg < 2 ^ vin ∧ r.word vin = w ↔ w / 2 ^ vin = r.op.toNat ∧ w % 2 ^ vin = r.arg := by
  rw [Nat.div_mod_unique (Nat.two_pow_pos vin), Request.word_eq, and_comm]

/-- The two fields of a word by quotient and remainder (R79). -/
theorem Request.ofWord_of_lt {vin w : Nat} (h : w < 2 ^ (vin + 2)) :
    Request.ofWord vin w = .ok { op := BitVec.ofNat 2 (w / 2 ^ vin), arg := w % 2 ^ vin } := by
  have hop : BitVec.ofNat 2 (slice w (vin + 1) vin) = BitVec.ofNat 2 (w / 2 ^ vin) := by
    apply BitVec.eq_of_toNat_eq
    simp [slice_eq]
  rw [Request.ofWord, if_pos h, hop, and_mask_eq_mod]

theorem Request.ofWord_of_le {vin w : Nat} (h : 2 ^ (vin + 2) ≤ w) :
    Request.ofWord vin w = .error (.wordTooWide w) :=
  if_neg (not_lt.2 h)

/-- Every number of `VIN + 2` bits is the word of the request it carries (R79). -/
theorem Request.exists_word_eq {vin w : Nat} (h : w < 2 ^ (vin + 2)) :
    ∃ r : Request, r.arg < 2 ^ vin ∧ r.word vin = w := by
  have hop : w / 2 ^ vin < 2 ^ 2 := Nat.div_lt_of_lt_mul (by rwa [pow_add] at h)
  refine ⟨⟨BitVec.ofNat 2 (w / 2 ^ vin), w % 2 ^ vin⟩, Request.word_eq_iff.2 ⟨?_, rfl⟩⟩
  rw [BitVec.toNat_ofNat, Nat.mod_eq_of_lt hop]

/-- A request that fits the port is read back from its word whole (R75, R79). -/
theorem Request.ofWord_word {vin : Nat} {r : Request} (h : r.arg < 2 ^ vin) :
    Request.ofWord vin (r.word vin) = .ok r := by
  obtain ⟨hop, harg⟩ := Request.word_eq_iff.1 ⟨h, rfl⟩
  rw [Request.ofWord_of_lt (Request.word_lt h), hop, harg, BitVec.ofNat_toNat, BitVec.setWidth_eq]

theorem encodeWord_lt {vin : Nat} {i : Instr} (h : i.wf vin = true) : encodeWord vin i < 2 ^ (vin + 2) :=
  Request.word_lt ((Instr.wf_iff vin i).1 h)

theorem decodeWord_encodeWord {vin : Nat} {i : Instr} (h : i.wf vin = true) :
    decodeWord vin (encodeWord vin i) = .ok i := by
  have hword : Request.ofWord vin (encodeWord vin i) = .ok (encode i) :=
    Request.ofWord_word ((Instr.wf_iff vin i).1 h)
  rw [decodeWord, hword, Except.map, decode_encode]

/-- Operations that fit the port are told apart by their words. -/
theorem encodeWord_injective {vin : Nat} {i j : Instr} (hi : i.wf vin = true) (hj : j.wf vin = true)
    (h : encodeWord vin i = encodeWord vin j) : i = j :=
  Except.ok.inj (by rw [← decodeWord_encodeWord hi, h, decodeWord_encodeWord hj])

/-- Every number of `VIN + 2` bits is the word of an operation (R77, R79). -/
theorem exists_encodeWord_eq {vin w : Nat} (h : w < 2 ^ (vin + 2)) :
    ∃ i : Instr, i.wf vin = true ∧ encodeWord vin i = w := by
  obtain ⟨r, harg, hword⟩ := Request.exists_word_eq h
  have hr : encode (decode r) = r := encode_decode r
  refine ⟨decode r, (Instr.wf_iff vin _).2 ?_, by rw [encodeWord, hr, hword]⟩
  rwa [← hr] at harg

theorem decodeWord_of_le {vin w : Nat} (h : 2 ^ (vin + 2) ≤ w) : decodeWord vin w = .error (.wordTooWide w) := by
  rw [decodeWord, Request.ofWord_of_le h, Except.map]

/-- A slice below bit `n` of a number does not see the bits at and above `n`. -/
theorem mod_two_pow_div_mod {a b n : Nat} (h : a + b ≤ n) (v : Nat) :
    v % 2 ^ n / 2 ^ a % 2 ^ b = v / 2 ^ a % 2 ^ b := by
  obtain ⟨c, rfl⟩ := Nat.exists_eq_add_of_le h
  rw [add_assoc, pow_add, Nat.mod_mul_right_div_self, pow_add, Nat.mod_mul_right_mod]

namespace Machine

/-! ### The fields of an entry byte and of an address -/

/-- The document's shift and mask read the entry of R72 in the low byte of an argument (R76, R110). -/
theorem spec_entry_ofNat_eq (n : Nat) : Spec.entry (BitVec.ofNat 8 n) = splitEntry n := by
  have hvalid : (BitVec.ofNat 8 n).getLsbD 7 = (splitEntry n).valid := by
    rw [splitEntry_valid_eq, BitVec.getLsbD_ofNat, Nat.testBit_eq_decide_div_mod_eq]
    rfl
  have hframe : (BitVec.ofNat 8 n).extractLsb' 0 7 = (splitEntry n).frame := by
    apply BitVec.eq_of_toNat_eq
    simp [splitEntry_frame_toNat]
  rw [Spec.entry, hvalid, hframe]

/-- The three fields lie in the low `VAW` bits (R71). -/
theorem splitAddress_mod_vaw (g : Geometry) (v : Nat) : splitAddress g (v % 2 ^ g.vaw) = splitAddress g v := by
  have hdir : g.tw + g.ow + g.dw ≤ g.vaw := by rw [Geometry.vaw]; omega
  have htbl : g.ow + g.tw ≤ g.vaw := by rw [Geometry.vaw]; omega
  have hoff : g.ow ≤ g.vaw := by rw [Geometry.vaw]; omega
  simp only [← spec_fields_eq, Spec.fields, mod_two_pow_div_mod hdir, mod_two_pow_div_mod htbl,
    Nat.mod_mod_of_dvd v (pow_dvd_pow 2 hoff)]

theorem splitAddress_eq_of_mod_eq {g : Geometry} {v w : Nat} (h : v % 2 ^ g.vaw = w % 2 ^ g.vaw) :
    splitAddress g v = splitAddress g w := by
  rw [← splitAddress_mod_vaw g v, h, splitAddress_mod_vaw]

/-- A walk sees its address through the three fields alone (R122). -/
theorem walk_eq_of_mod_eq {g : Geometry} {v w : Nat} (h : v % 2 ^ g.vaw = w % 2 ^ g.vaw) (mem disk : Memory) :
    walk g mem disk v = walk g mem disk w := by
  rw [walk, walk, splitAddress_eq_of_mod_eq h]

theorem decompose_eq_of_mod_eq {g : Geometry} {v w : Nat} (h : v % 2 ^ g.vaw = w % 2 ^ g.vaw) :
    decompose g v = decompose g w := by
  rw [decompose, decompose, splitAddress_eq_of_mod_eq h]

/-- Bit 15 is the first above the 15-bit addresses of the reference geometry (R8). -/
theorem add_mod_reference_vaw (v : Nat) :
    (0x8000 + v) % 2 ^ Geometry.reference.vaw = v % 2 ^ Geometry.reference.vaw :=
  Nat.add_mod_left (2 ^ 15) v

/-! ### The status of a walk -/

/-- No walk ends with the status of another operation (R82). -/
theorem WalkExit.status_ne {g : Geometry} {mem disk : Memory} {v : Nat} {t : Transaction}
    (h : WalkExit g mem disk v t) : t.result.status ≠ .ok ∧ t.result.status ≠ .illegalOp := by
  cases h <;> exact ⟨nofun, nofun⟩

/-- The codes between OK and ILLEGAL_OP are those of the other statuses (R82). -/
theorem Status.code_bounds {s : Status} (h : s ≠ .ok ∧ s ≠ .illegalOp) : 1 ≤ s.code.toNat ∧ s.code.toNat ≤ 5 := by
  revert h
  cases s <;> decide

/-! ### The statements -/

/-- Settles O1, from the word as a quotient and a remainder. -/
theorem decodeEncodeRoundTrip : Obligations.DecodeEncodeRoundTrip :=
  fun _ _ h => ⟨encodeWord_lt h, decodeWord_encodeWord h⟩

/-- Settles O2: encoding is onto the numbers of `VIN + 2` bits and one to one, and decoding undoes it. -/
theorem everyRequestWordHasOneMeaning : Obligations.EveryRequestWordHasOneMeaning := by
  refine fun vin w => ⟨fun h => ?_, decodeWord_of_le⟩
  obtain ⟨i, hi, rfl⟩ := exists_encodeWord_eq h
  exact ⟨i, hi, decodeWord_encodeWord hi, rfl, fun j hj => encodeWord_injective hj hi⟩

/-- Settles O15: the two bit fields of the low byte by quotient and remainder. -/
theorem decodeEntryReturnsValidAndFrame : Obligations.DecodeEntryReturnsValidAndFrame := by
  refine ⟨fun a => decode_encode (.decodeEntry a), fun s a => ?_, fun g mem disk a => ⟨rfl, rfl⟩, by decide⟩
  refine ⟨splitEntry a, exec_eq_answered _ s, ?_, splitEntry_frame_toNat a, (spec_entry_ofNat_eq a).symm⟩
  rw [splitEntry_valid_eq, decide_eq_true_iff]
  rfl

/-- Settles O25: both operations see their address through the three fields, which lie in its low `VAW` bits. -/
theorem highAddressBitsAreIgnored : Obligations.HighAddressBitsAreIgnored := by
  have htranslate : ∀ (s : State) (v w : Nat), v % 2 ^ s.geom.vaw = w % 2 ^ s.geom.vaw →
      exec (.translate v) s = exec (.translate w) s := fun s v w h => by
    rw [exec_eq_deliver, exec_eq_deliver, perform, perform, walk_eq_of_mod_eq h]
  refine ⟨fun s v w h => ⟨htranslate s v w h, ?_⟩, fun s v hg => htranslate s _ v ?_⟩
  · rw [exec_eq_deliver, exec_eq_deliver, perform, perform, decompose_eq_of_mod_eq h]
  · rw [hg, add_mod_reference_vaw]

/-- Settles O31: each exit of a walk has the path that its bytes led to. -/
theorem presenceByOutcome : Obligations.PresenceByOutcome := by
  intro g mem disk v
  have hexit := walkExit_walk g mem disk v
  generalize walk g mem disk v = t at hexit
  cases hexit <;> exact ⟨rfl, rfl, rfl, rfl, rfl, rfl, rfl, rfl, rfl, rfl, rfl⟩

/-- Settles O32: the codes are read off, and no exit of a walk has the status of another operation. -/
theorem statusAndSiteCodes : Obligations.StatusAndSiteCodes := by
  refine ⟨rfl, rfl, fun st hst => ?_, fun g mem disk i => ?_⟩
  · exact absurd (congrArg BitVec.toNat hst) st.code_toNat_lt.ne
  · cases i with
    | translate v => exact Status.code_bounds (walkExit_walk g mem disk v).status_ne
    | decompose | decodeEntry | reserved => rfl

/-- Settles O3: each example is the word of the operation it stands for. -/
theorem exampleRequestWordsDecode : Obligations.ExampleRequestWordsDecode :=
  ⟨decodeWord_encodeWord (i := .translate 0x6C74) (by decide),
    decodeWord_encodeWord (i := .decompose 0x6C74) (by decide),
    decodeWord_encodeWord (i := .decodeEntry 0x85) (by decide),
    decodeWord_encodeWord (i := .reserved 0) (by decide),
    decodeWord_encodeWord (i := .reserved 0xFFFF) (by decide),
    decodeWord_encodeWord (i := .decodeEntry 0xFFFF) (by decide)⟩

/-- Settles O4, by reading the example lines of R88. -/
theorem requestTextIsRead : Obligations.RequestTextIsRead :=
  ⟨by decide, by decide, by decide, by decide, rfl⟩

/-- Settles O30: the one result of the reserved code has no path and no entry. -/
theorem reservedCodeReturnsIllegalOp : Obligations.ReservedCodeReturnsIllegalOp :=
  ⟨fun a => decode_encode (.reserved a), fun s a => exec_eq_answered (.reserved a) s, fun _ _ _ _ => rfl, rfl⟩

end Machine
end Sys2Proof
end

section
/-! SUPPORT. DECOMPOSE: the three fields of an address and the address they make (R100 to R103). -/

namespace Sys2Proof.Machine

/-! ### The address made of three fields -/

/-- Fields that fit do not overlap, so the `|` of R101 may be read as `+`. -/
theorem joinAddress_eq_add {g : Geometry} {f : Fields} (hf : f.fit g) :
    joinAddress g f = (f.dirIndex <<< (g.tw + g.ow)) + (f.tblIndex <<< g.ow) + f.offset := by
  have hlow : (f.tblIndex <<< g.ow) + f.offset < 2 ^ (g.tw + g.ow) :=
    calc (f.tblIndex <<< g.ow) + f.offset < 2 ^ g.tw <<< g.ow := shiftLeft_add_lt hf.tblIndex_lt hf.offset_lt
      _ = 2 ^ (g.tw + g.ow) := by rw [Nat.shiftLeft_eq, pow_add]
  rw [joinAddress, Nat.or_assoc, ← Nat.shiftLeft_add_eq_or_of_lt hf.offset_lt,
    ← Nat.shiftLeft_add_eq_or_of_lt hlow, add_assoc]

/-- The page number above the offset, and the directory index above the table index. -/
theorem joinAddress_eq_nested {g : Geometry} {f : Fields} (hf : f.fit g) :
    joinAddress g f = f.offset + 2 ^ g.ow * (f.tblIndex + 2 ^ g.tw * f.dirIndex) := by
  rw [joinAddress_eq_add hf, Nat.shiftLeft_eq, Nat.shiftLeft_eq]
  ring

/-- The fields of an address are the digits of its low `VAW` bits (R101). -/
theorem joinAddress_splitAddress (g : Geometry) (v : Nat) : joinAddress g (splitAddress g v) = v % 2 ^ g.vaw := by
  have hvaw : 2 ^ g.vaw = 2 ^ g.ow * (2 ^ g.tw * 2 ^ g.dw) := by rw [Geometry.vaw]; ring
  rw [joinAddress_eq_nested (splitAddress_fit g v), splitAddress_dirIndex_eq, splitAddress_tblIndex_eq,
    splitAddress_offset_eq, hvaw, Nat.mod_mul, Nat.mod_mul, Nat.div_div_eq_div_mul, ← pow_add, Nat.add_comm g.ow]

/-- Fields that fit are the split of the address they make (R101). -/
theorem splitAddress_joinAddress {g : Geometry} {f : Fields} (hf : f.fit g) :
    splitAddress g (joinAddress g f) = f := by
  obtain ⟨hpage, hoff⟩ :=
    (Nat.div_mod_unique (Nat.two_pow_pos g.ow)).2 ⟨(joinAddress_eq_nested hf).symm, hf.offset_lt⟩
  obtain ⟨hdir, htbl⟩ := (Nat.div_mod_unique (Nat.two_pow_pos g.tw)).2 ⟨rfl, hf.tblIndex_lt⟩
  rw [← spec_fields_eq, Spec.fields, Nat.add_comm g.tw, pow_add, ← Nat.div_div_eq_div_mul, hpage, hoff, hdir, htbl,
    Nat.mod_eq_of_lt hf.dirIndex_lt]

/-! ### What the split sees -/

/-- The bounds of R102 as they are written there. -/
theorem Fields.fit.le_pred {g : Geometry} {f : Fields} (hf : f.fit g) :
    f.dirIndex ≤ 2 ^ g.dw - 1 ∧ f.tblIndex ≤ 2 ^ g.tw - 1 ∧ f.offset ≤ 2 ^ g.ow - 1 :=
  ⟨Nat.le_pred_of_lt hf.dirIndex_lt, Nat.le_pred_of_lt hf.tblIndex_lt, Nat.le_pred_of_lt hf.offset_lt⟩

/-- DECOMPOSE reads the three index widths and nothing else of the geometry (R100). -/
theorem splitAddress_eq_of_widths_eq {g g' : Geometry} (hdw : g'.dw = g.dw) (htw : g'.tw = g.tw) (how : g'.ow = g.ow)
    (v : Nat) : splitAddress g' v = splitAddress g v := by
  rw [splitAddress, splitAddress, hdw, htw, how]

/-! ### The statements -/

/-- Settles O11: the slices of R100 are the model's fields, and DECOMPOSE finishes without a read. -/
theorem decomposeReturnsTheThreeFields : Obligations.DecomposeReturnsTheThreeFields := by
  refine ⟨fun v => decode_encode (.decompose v), fun s v => ?_, fun g mem disk v => ⟨rfl, rfl⟩, rfl⟩
  rw [spec_fields_eq]
  exact exec_eq_answered (.decompose v) s

/-- Settles O12: the fields of an address fit, and for fields that fit splitting and joining undo each other. -/
theorem decomposeRoundTrips : Obligations.DecomposeRoundTrips := by
  refine ⟨fun g v => ?_, fun g d t o hd ht ho => ?_⟩
  · have hjoin : joinAddress g (splitAddress g v) = v &&& mask g.vaw := by
      rw [joinAddress_splitAddress, and_mask_eq_mod]
    exact ⟨hjoin, by rw [← joinAddress_eq_add (splitAddress_fit g v), hjoin]⟩
  · exact splitAddress_joinAddress (f := ⟨d, t, o⟩) ⟨hd, ht, ho⟩

/-- Settles O13: each field fits its width. -/
theorem fieldsStayInRange : Obligations.FieldsStayInRange :=
  ⟨fun g v => (splitAddress_fit g v).le_pred, fun v => (splitAddress_fit Geometry.reference v).le_pred⟩

/-- Settles O14: the tables are computed, the high bits lie above `VAW`, and only the widths are read. -/
theorem decomposeCornerCases : Obligations.DecomposeCornerCases := by
  refine ⟨by decide, by decide, fun v _ => (splitAddress_mod_vaw Geometry.reference v).symm, ?_⟩
  intro g g' mem disk mem' disk' v hdw htw how
  exact congrArg Result.decomposed (splitAddress_eq_of_widths_eq hdw htw how v)

end Sys2Proof.Machine
end

section
/-! SUPPORT. DECODE_ENTRY: the two fields of an entry byte and the byte they make (R110 to R112). -/

namespace Sys2Proof.Machine

/-! ### The number made of an entry -/

/-- The frame lies below bit 7, so the `|` of R111 may be read as `+`. -/
theorem entry_shiftLeft_or_eq (e : Entry) :
    (e.valid.toNat <<< 7) ||| e.frame.toNat = e.frame.toNat + 128 * e.valid.toNat := by
  rw [← Nat.shiftLeft_add_eq_or_of_lt e.frame.isLt, Nat.shiftLeft_eq]
  ring

theorem joinEntry_toNat (e : Entry) : (joinEntry e).toNat = e.frame.toNat + 128 * e.valid.toNat := by
  have hframe : e.frame.toNat < 128 := e.frame.isLt
  have hvalid : e.valid.toNat ≤ 1 := e.valid.toNat_le
  rw [joinEntry, entry_shiftLeft_or_eq, BitVec.toNat_ofNat]
  omega

theorem splitEntry_valid_toNat (n : Nat) : (splitEntry n).valid.toNat = n / 128 % 2 := by
  rw [splitEntry_valid_eq]
  obtain h | h := Nat.mod_two_eq_zero_or_one (n / 128) <;> rw [h] <;> rfl

/-! ### Splitting and joining -/

/-- The two fields are the digits of the low 8 bits (R111). -/
theorem splitEntry_shiftLeft_or_eq (n : Nat) :
    ((splitEntry n).valid.toNat <<< 7) ||| (splitEntry n).frame.toNat = n % 2 ^ 8 := by
  rw [entry_shiftLeft_or_eq, splitEntry_frame_toNat, splitEntry_valid_toNat]
  exact (Nat.mod_mul (a := 128) (b := 2)).symm

theorem joinEntry_splitEntry (b : Byte) : joinEntry (splitEntry b.toNat) = b := by
  rw [joinEntry, splitEntry_shiftLeft_or_eq, Nat.mod_eq_of_lt b.isLt, BitVec.ofNat_toNat, BitVec.setWidth_eq]

theorem splitEntry_joinEntry (e : Entry) : splitEntry (joinEntry e).toNat = e := by
  obtain ⟨hdiv, hmod⟩ :=
    (Nat.div_mod_unique (by decide : 0 < 128)).2 ⟨(joinEntry_toNat e).symm, e.frame.isLt⟩
  have hframe : (splitEntry (joinEntry e).toNat).frame = e.frame := by
    rw [← BitVec.toNat_inj, splitEntry_frame_toNat, hmod]
  have hvalid : (splitEntry (joinEntry e).toNat).valid = e.valid := by
    rw [splitEntry_valid_eq, hdiv]
    cases e.valid <;> rfl
  exact (Entry.mk.injEq ..).mpr ⟨hvalid, hframe⟩

/-- The entry is read in the byte that the number's low 8 bits make (R76, R112). -/
theorem splitEntry_mod (n : Nat) : splitEntry (n % 2 ^ 8) = splitEntry n := by
  have hbyte : BitVec.ofNat 8 (n % 2 ^ 8) = BitVec.ofNat 8 n := by
    rw [← BitVec.toNat_inj, BitVec.toNat_ofNat, BitVec.toNat_ofNat, Nat.mod_mod]
  rw [← spec_entry_ofNat_eq, hbyte, spec_entry_ofNat_eq]

/-! ### The statements -/

/-- Settles O16: the two fields are the digits of the byte, so splitting and joining undo each other. -/
theorem entryDecodingIsABijection : Obligations.EntryDecodingIsABijection := by
  refine ⟨fun b => ?_, joinEntry_splitEntry, splitEntry_joinEntry⟩
  rw [splitEntry_shiftLeft_or_eq, Nat.mod_eq_of_lt b.isLt]

/-- Settles O17: the table is computed, and the bits above the byte are not read. -/
theorem decodeEntryCornerCases : Obligations.DecodeEntryCornerCases :=
  ⟨by decide, fun n => (splitEntry_mod n).symm⟩

end Sys2Proof.Machine
end

section
/-! SUPPORT. TRANSLATE: what each outcome of the walk is, from the bytes that lead there (R120 to R134), and that a
legal instance always goes on (R159, R191). -/

namespace Sys2Proof.Machine

/-! ### An exit's bytes determine the walk -/

section resolve
variable {pte : Entry} (mem disk : Memory) (p : TranslationPath) (a : Nat)

/-- The sentinel test comes first and reads nothing (R129). -/
theorem resolve_of_sentinel (hs : pte.frame = sentinel) : resolve mem disk p pte a = finish (.tableFault p) := by
  rw [resolve, if_pos hs]

/-- A page that is not resident is read from DISK (R130). -/
theorem resolve_of_invalid (hs : pte.frame ≠ sentinel) (hv : pte.valid = false) :
    resolve mem disk p pte a = readByte .disk disk a .dataDisk p fun b => finish (.resolved .disk p b) := by
  rw [resolve, if_neg hs, if_pos hv]

/-- A resident page is read from MEM (R131). -/
theorem resolve_of_valid (hs : pte.frame ≠ sentinel) (hv : pte.valid = true) :
    resolve mem disk p pte a = readByte .mem mem a .dataMem p fun b => finish (.resolved .memory p b) := by
  rw [resolve, if_neg hs, if_neg (ne_false_of_eq_true hv)]

/-- From step 6 on the path stays as it is, and the directory entry is not looked at again (R129 to R132). -/
theorem resolve_keeps_path (pte : Entry) :
    (resolve mem disk p pte a).result.path = some p ∧
    (resolve mem disk p pte a).result.status ≠ .directoryFault := by
  obtain ⟨-, heq⟩ | ⟨-, -, ⟨-, heq⟩ | ⟨b, -, heq⟩⟩ | ⟨-, -, ⟨-, heq⟩ | ⟨b, -, heq⟩⟩ :=
    resolve_cases mem disk p pte a <;> rw [heq] <;> exact ⟨rfl, nofun⟩

end resolve

/-- The converse of `walkExit_walk`: the exits exclude one another, so the one whose bytes are there is the walk. -/
theorem WalkExit.walk_eq {g : Geometry} {mem disk : Memory} {v : Nat} {t : Transaction}
    (h : WalkExit g mem disk v t) : walk g mem disk v = t := by
  cases h with
  | pdeOutOfRange hP => exact walk_of_pde_none hP
  | directoryFault hP hinvalid => exact walk_of_pde_invalid hP hinvalid
  | pteOutOfRange hP hQ => rw [walk_of_pde_valid hP.pde hP.valid, lookupTable_of_none hQ]; rfl
  | tableFault hQ hs => rw [walk_of_tableRead hQ, resolve_of_sentinel _ _ _ _ hs]; rfl
  | diskOutOfRange hQ hs hv hr =>
    rw [walk_of_tableRead hQ, resolve_of_invalid _ _ _ _ hs hv, readByte_of_none hr]; rfl
  | diskResolved hQ hs hv hr =>
    rw [walk_of_tableRead hQ, resolve_of_invalid _ _ _ _ hs hv, readByte_of_some hr]; rfl
  | memOutOfRange hQ hs hv hr =>
    rw [walk_of_tableRead hQ, resolve_of_valid _ _ _ _ hs hv, readByte_of_none hr]; rfl
  | memResolved hQ hs hv hr =>
    rw [walk_of_tableRead hQ, resolve_of_valid _ _ _ _ hs hv, readByte_of_some hr]; rfl

/-- TRANSLATE delivers the result of the exit whose bytes are there. -/
theorem WalkExit.exec_eq {s : State} {v : Nat} {t : Transaction} (h : WalkExit s.geom s.mem s.disk v t) :
    exec (.translate v) s = .next (Spec.answered s t.result) := by
  rw [exec_eq_answered, perform, h.walk_eq]

/-- A walk that reads both entries tells both, whatever comes of the final address, and is no DirectoryFault. -/
theorem TableRead.path_eq {g : Geometry} {mem : Memory} {v : Nat} {P Q : Byte} (h : TableRead g mem v P Q)
    (disk : Memory) :
    (walk g mem disk v).result.path = some (tablePath g v P Q) ∧
    (walk g mem disk v).result.status ≠ .directoryFault := by
  rw [walk_of_tableRead h]
  exact resolve_keeps_path mem disk _ _ _

/-! ### The tests on an entry byte and the final address, as the rules write them -/

theorem spec_entry_eq (b : Byte) : Spec.entry b = splitEntry b.toNat := by
  rw [← spec_entry_ofNat_eq, BitVec.ofNat_toNat, BitVec.setWidth_eq]

theorem splitEntry_valid_eq_getLsbD (b : Byte) : (splitEntry b.toNat).valid = b.getLsbD 7 := by
  rw [← spec_entry_eq, Spec.entry]

theorem walkFinal_eq {g : Geometry} {Q : Byte} {n : Nat} (h : Q.toNat % 128 = n) (v : Nat) :
    walkFinal g v Q = (n <<< g.ow) + (splitAddress g v).offset := by
  rw [walkFinal, finalAddress, pageBase, splitEntry_frame_toNat, h]

theorem tablePath_eq {g : Geometry} {v a : Nat} {Q : Byte} (h : walkFinal g v Q = a) (P : Byte) :
    tablePath g v P Q =
      { fields := splitAddress g v, pde := some (splitEntry P.toNat), pte := some (splitEntry Q.toNat),
        finalAddr := some a } := by
  rw [← h]; rfl

section bytes
variable {g : Geometry} {mem : Memory} {v : Nat} {P Q : Byte}

theorem directoryRead_of_bit (hP : mem.read (g.pdbr + (splitAddress g v).dirIndex) = some P)
    (hbit : P.getLsbD 7 = true) : DirectoryRead g mem v P :=
  ⟨hP, (splitEntry_valid_eq_getLsbD P).trans hbit⟩

theorem tableRead_of_bit (hP : mem.read (g.pdbr + (splitAddress g v).dirIndex) = some P) (hbit : P.getLsbD 7 = true)
    (hQ : mem.read (((splitEntry P.toNat).frame.toNat <<< g.tw) + (splitAddress g v).tblIndex) = some Q) :
    TableRead g mem v P Q :=
  ⟨directoryRead_of_bit hP hbit, hQ⟩

end bytes

/-! ### The algorithm of R121 -/

theorem spec_path0_eq (g : Geometry) (v : Nat) : Spec.path0 g v = .start (splitAddress g v) := by
  rw [Spec.path0, spec_fields_eq, TranslationPath.start]

theorem spec_path1_eq (g : Geometry) (v : Nat) (P : Byte) : Spec.path1 g v P = directoryPath g v P := by
  rw [Spec.path1, spec_fields_eq, spec_entry_eq]
  rfl

theorem spec_path2_eq (g : Geometry) (v : Nat) (P Q : Byte) : Spec.path2 g v P Q = tablePath g v P Q := by
  rw [Spec.path2, spec_fields_eq, spec_entry_eq, spec_entry_eq, spec_finalAddr_eq]
  rfl

/-- The result of each exit is the one of the spec's algorithm (R121). -/
theorem WalkExit.result_eq {g : Geometry} {mem disk : Memory} {v : Nat} {t : Transaction}
    (h : WalkExit g mem disk v t) : t.result = Spec.walkResult g mem disk v := by
  simp only [Spec.walkResult, spec_pdeAddr_eq, spec_pteAddr_eq, spec_finalAddr_eq, spec_path0_eq, spec_path1_eq,
    spec_path2_eq, ← splitEntry_valid_eq_false_iff, ← splitEntry_frame_eq_sentinel_iff]
  cases h with
  | pdeOutOfRange hP => simp only [hP]
  | directoryFault hP hinvalid => simp only [hP, hinvalid, if_true]
  | pteOutOfRange hP hQ => simp [hP.pde, hP.valid, hQ]
  | tableFault hQ hs => simp [hQ.pde, hQ.valid, hQ.pte, hs]
  | diskOutOfRange hQ hs hv hr => simp [hQ.pde, hQ.valid, hQ.pte, hs, hv, hr]
  | diskResolved hQ hs hv hr => simp [hQ.pde, hQ.valid, hQ.pte, hs, hv, hr]
  | memOutOfRange hQ hs hv hr => simp [hQ.pde, hQ.valid, hQ.pte, hs, hv, hr]
  | memResolved hQ hs hv hr => simp [hQ.pde, hQ.valid, hQ.pte, hs, hv, hr]

/-! ### Images of nominal size -/

theorem Memory.exists_read_of_lt {m : Memory} {a : Nat} (h : a < m.size) : ∃ b, m.read a = some b :=
  ⟨_, (m.read_eq_some_iff a _).2 ⟨h, rfl⟩⟩

section nominal
variable {g : Geometry} {mem disk : Memory} {v : Nat} {P Q : Byte}

theorem exists_read_pde (hn : Spec.nominal g mem disk) (v : Nat) :
    ∃ P, mem.read (pdeAddr g (splitAddress g v)) = some P := by
  obtain ⟨hmem, -⟩ := hn
  exact Memory.exists_read_of_lt ((pdeAddr_lt (splitAddress_fit g v)).trans_le
    ((le_max_of_le_right (le_max_right _ _)).trans hmem))

theorem exists_read_pte (hn : Spec.nominal g mem disk) (v : Nat) (e : Entry) :
    ∃ Q, mem.read (pteAddr g e (splitAddress g v)) = some Q := by
  obtain ⟨hmem, -⟩ := hn
  exact Memory.exists_read_of_lt ((pteAddr_lt (splitAddress_fit g v) e).trans_le
    ((le_max_of_le_right (le_max_left _ _)).trans hmem))

/-- On images of nominal size a walk reads an invalid directory entry, or it reads both entries (R49, R134). -/
theorem directoryFault_or_tableRead (hn : Spec.nominal g mem disk) (v : Nat) :
    (∃ P, mem.read (pdeAddr g (splitAddress g v)) = some P ∧ (splitEntry P.toNat).valid = false) ∨
    ∃ P Q, TableRead g mem v P Q := by
  obtain ⟨P, hP⟩ := exists_read_pde hn v
  cases hv : (splitEntry P.toNat).valid with
  | false => exact .inl ⟨P, hP, hv⟩
  | true =>
    obtain ⟨Q, hQ⟩ := exists_read_pte hn v (splitEntry P.toNat)
    exact .inr ⟨P, Q, ⟨hP, hv⟩, hQ⟩

/-- The status that a table entry calls for when no read is out of range (R129 to R131). -/
def tableStatus (pte : Entry) : Status :=
  if pte.frame = sentinel then .tableFault else if pte.valid = false then .resolvedDisk else .resolvedMemory

theorem TableRead.status_eq (h : TableRead g mem v P Q) (hn : Spec.nominal g mem disk) :
    (walk g mem disk v).result.status = tableStatus (splitEntry Q.toNat) := by
  have hin := walk_ne_outOfRange_of_nominal hn v
  rw [walk_of_tableRead h] at hin ⊢
  obtain ⟨hs, heq⟩ | ⟨hs, hv, ⟨-, heq⟩ | ⟨b, -, heq⟩⟩ | ⟨hs, hv, ⟨-, heq⟩ | ⟨b, -, heq⟩⟩ :=
    resolve_cases mem disk (tablePath g v P Q) (splitEntry Q.toNat) (walkFinal g v Q) <;> rw [heq] at hin ⊢
  · rw [tableStatus, if_pos hs]; rfl
  · exact absurd rfl hin
  · rw [tableStatus, if_neg hs, if_pos hv]; rfl
  · exact absurd rfl hin
  · rw [tableStatus, if_neg hs, if_neg (ne_false_of_eq_true hv)]; rfl

theorem tableStatus_eq_tableFault_iff (Q : Byte) :
    tableStatus (splitEntry Q.toNat) = .tableFault ↔ Q.toNat % 128 = 0x7F := by
  rw [← splitEntry_frame_eq_sentinel_iff, tableStatus]
  split_ifs <;> simp [*]

theorem tableStatus_eq_resolvedDisk_iff (Q : Byte) :
    tableStatus (splitEntry Q.toNat) = .resolvedDisk ↔ Q.toNat % 128 ≠ 0x7F ∧ Q.getLsbD 7 = false := by
  rw [ne_eq, ← splitEntry_frame_eq_sentinel_iff, ← splitEntry_valid_eq_getLsbD, tableStatus]
  split_ifs <;> simp [*]

theorem tableStatus_eq_resolvedMemory_iff (Q : Byte) :
    tableStatus (splitEntry Q.toNat) = .resolvedMemory ↔ Q.toNat % 128 ≠ 0x7F ∧ Q.getLsbD 7 = true := by
  rw [ne_eq, ← splitEntry_frame_eq_sentinel_iff, ← splitEntry_valid_eq_getLsbD, tableStatus]
  split_ifs <;> simp [*]

theorem TableRead.finalAddr_eq (h : TableRead g mem v P Q) (disk : Memory) :
    (walk g mem disk v).result.record.finalAddr =
      some (((Q.toNat % 128) <<< g.ow) + (splitAddress g v).offset) := by
  obtain ⟨hpath, -⟩ := h.path_eq disk
  rw [← walkFinal_eq rfl v, Result.record, hpath]
  rfl

/-- The value of a resolved walk is the byte at its final address, in the image that its status names (R130, R131). -/
theorem TableRead.value_eq (h : TableRead g mem v P Q) :
    let r := (walk g mem disk v).result
    (r.status = .resolvedDisk → r.value.isSome = true ∧ r.value = disk.read (walkFinal g v Q)) ∧
    (r.status = .resolvedMemory → r.value.isSome = true ∧ r.value = mem.read (walkFinal g v Q)) := by
  rw [walk_of_tableRead h]
  obtain ⟨-, heq⟩ | ⟨-, -, ⟨-, heq⟩ | ⟨b, hr, heq⟩⟩ | ⟨-, -, ⟨-, heq⟩ | ⟨b, hr, heq⟩⟩ :=
    resolve_cases mem disk (tablePath g v P Q) (splitEntry Q.toNat) (walkFinal g v Q) <;> rw [heq]
  · exact ⟨nofun, nofun⟩
  · exact ⟨nofun, nofun⟩
  · exact ⟨fun _ => ⟨rfl, hr.symm⟩, nofun⟩
  · exact ⟨nofun, nofun⟩
  · exact ⟨nofun, fun _ => ⟨rfl, hr.symm⟩⟩

end nominal

/-! ### Addresses that differ in the offset alone -/

section samePage
variable {g : Geometry} {mem : Memory} {v w : Nat} {P Q : Byte} (h : w / 2 ^ g.ow = v / 2 ^ g.ow)
include h

/-- The two indexes lie above the offset (R70). -/
theorem splitAddress_of_samePage : splitAddress g w = { splitAddress g v with offset := w % 2 ^ g.ow } := by
  simp only [← spec_fields_eq, Spec.fields, Nat.add_comm g.tw, pow_add, ← Nat.div_div_eq_div_mul, h]

theorem pdeAddr_of_samePage : pdeAddr g (splitAddress g w) = pdeAddr g (splitAddress g v) := by
  rw [splitAddress_of_samePage h]; rfl

theorem pteAddr_of_samePage (e : Entry) : pteAddr g e (splitAddress g w) = pteAddr g e (splitAddress g v) := by
  rw [splitAddress_of_samePage h]; rfl

theorem TableRead.of_samePage (hQ : TableRead g mem v P Q) : TableRead g mem w P Q :=
  ⟨⟨pdeAddr_of_samePage h ▸ hQ.pde, hQ.valid⟩, pteAddr_of_samePage h _ ▸ hQ.pte⟩

end samePage

/-! ### The laws of R134 -/

/-- Laws (b) to (d) of R134: what the table entry's byte says of the walk that read it. -/
theorem TableRead.laws {g : Geometry} {mem disk : Memory} {v : Nat} {P Q : Byte} (h : TableRead g mem v P Q)
    (hn : Spec.nominal g mem disk) :
    let r := (walk g mem disk v).result
    let a := ((Q.toNat % 128) <<< g.ow) + (splitAddress g v).offset
    (r.status = .tableFault ↔ Q.toNat % 128 = 0x7F) ∧
    (r.status = .resolvedDisk ↔ Q.toNat % 128 ≠ 0x7F ∧ Q.getLsbD 7 = false) ∧
    (r.status = .resolvedDisk →
      r.record.finalAddr = some a ∧ r.record.value.isSome = true ∧ r.record.value = disk.read a) ∧
    (r.status = .resolvedMemory ↔ Q.toNat % 128 ≠ 0x7F ∧ Q.getLsbD 7 = true) ∧
    (r.status = .resolvedMemory →
      r.record.finalAddr = some a ∧ r.record.value.isSome = true ∧ r.record.value = mem.read a) := by
  intro r a
  have hstatus : r.status = tableStatus (splitEntry Q.toNat) := h.status_eq hn
  have hfinal : r.record.finalAddr = some a := h.finalAddr_eq disk
  obtain ⟨hdisk, hmem⟩ := h.value_eq (disk := disk)
  rw [walkFinal_eq rfl v] at hdisk hmem
  exact ⟨hstatus ▸ tableStatus_eq_tableFault_iff Q, hstatus ▸ tableStatus_eq_resolvedDisk_iff Q,
    fun hst => ⟨hfinal, hdisk hst⟩, hstatus ▸ tableStatus_eq_resolvedMemory_iff Q, fun hst => ⟨hfinal, hmem hst⟩⟩

/-- Law (e) of R134. -/
theorem walk_status_of_nominal {g : Geometry} {mem disk : Memory} (hn : Spec.nominal g mem disk) (v : Nat) :
    let st := (walk g mem disk v).result.status
    st = .directoryFault ∨ st = .tableFault ∨ st = .resolvedDisk ∨ st = .resolvedMemory := by
  have hin := walk_ne_outOfRange_of_nominal hn v
  obtain ⟨hok, hillegal⟩ := (walkExit_walk g mem disk v).status_ne
  generalize (walk g mem disk v).result.status = st at hin hok hillegal
  cases st with
  | ok => exact absurd rfl hok
  | illegalOp => exact absurd rfl hillegal
  | outOfRange => exact absurd rfl hin
  | directoryFault | tableFault | resolvedDisk | resolvedMemory => decide

/-- Law (g) of R134: one page has one status and one pair of entries, and its final addresses differ as the offsets
do. -/
theorem walk_of_samePage {g : Geometry} {mem disk : Memory} {v w : Nat} (hn : Spec.nominal g mem disk)
    (h : w / 2 ^ g.ow = v / 2 ^ g.ow) :
    let r := (walk g mem disk v).result
    let q := (walk g mem disk w).result
    q.status = r.status ∧ q.record.pdeValid = r.record.pdeValid ∧ q.record.pdeFrame = r.record.pdeFrame ∧
    q.record.pteValid = r.record.pteValid ∧ q.record.pteFrame = r.record.pteFrame ∧
    q.record.finalAddr.map (· + v % 2 ^ g.ow) = r.record.finalAddr.map (· + w % 2 ^ g.ow) := by
  obtain ⟨P, hP, hv⟩ | ⟨P, Q, hQ⟩ := directoryFault_or_tableRead hn v
  · rw [walk_of_pde_invalid hP hv, walk_of_pde_invalid (pdeAddr_of_samePage h ▸ hP) hv]
    exact ⟨rfl, rfl, rfl, rfl, rfl, rfl⟩
  · have hQw : TableRead g mem w P Q := hQ.of_samePage h
    obtain ⟨hpath, -⟩ := hQ.path_eq disk
    obtain ⟨hpathw, -⟩ := hQw.path_eq disk
    refine ⟨(hQw.status_eq hn).trans (hQ.status_eq hn).symm, ?pdeValid, ?pdeFrame, ?pteValid, ?pteFrame, ?finalAddr⟩
    case finalAddr =>
      rw [hQ.finalAddr_eq, hQw.finalAddr_eq, splitAddress_offset_eq, splitAddress_offset_eq]
      exact congrArg some (Nat.add_right_comm _ _ _)
    all_goals simp only [Result.record, hpath, hpathw]; rfl

/-! ### The statements -/

/-- Settles O7: the step is idle, or it takes the first request and delivers its result. -/
theorem legalInstanceAlwaysGoesOn : Obligations.LegalInstanceAlwaysGoesOn := by
  intro s hl
  cases hp : s.pending with
  | nil => exact ⟨s, step_of_idle hl hp, hl, .inl ⟨rfl, rfl⟩⟩
  | cons r rest => exact ⟨_, step_eq_deliver hl hp, hl, .inr ⟨rfl, List.length_append⟩⟩

/-- Settles O18: each exit of the walk is the one the algorithm takes on those bytes. -/
theorem translateFollowsTheAlgorithm : Obligations.TranslateFollowsTheAlgorithm := by
  intro s v
  rw [← (walkExit_walk s.geom s.mem s.disk v).result_eq]
  exact exec_eq_answered (.translate v) s

/-- Settles O19: two exits before the table lookup, and past them a path that tells the entry read. -/
theorem directoryLookupTestsTheValidBitOnly : Obligations.DirectoryLookupTestsTheValidBitOnly := by
  intro s v f a
  refine ⟨fun h => ?outOfRange, fun P hP hbit => ?invalid, fun P hP hbit => ?valid⟩
  case outOfRange => exact (WalkExit.pdeOutOfRange ((s.mem.read_eq_none_iff _).2 h)).exec_eq
  case invalid => exact (WalkExit.directoryFault hP ((splitEntry_valid_eq_getLsbD P).trans hbit)).exec_eq
  case valid =>
    have hdir := directoryRead_of_bit hP hbit
    cases hQ : s.mem.read (pteAddr s.geom (splitEntry P.toNat) f) with
    | none =>
      exact ⟨_, directoryPath s.geom v P, (WalkExit.pteOutOfRange hdir hQ).exec_eq, rfl, rfl, rfl, nofun, fun _ => rfl⟩
    | some Q =>
      obtain ⟨hpath, hstatus⟩ := TableRead.path_eq ⟨hdir, hQ⟩ s.disk
      exact ⟨_, _, exec_eq_answered _ s, hpath, rfl, rfl, hstatus, nofun⟩

/-- Settles O20: the table index lies below the bits of the frame, and the path of a walk that reads `Q` tells it. -/
theorem tableLookupReadsMemory : Obligations.TableLookupReadsMemory := by
  intro s v P f pde a
  have htbl : f.tblIndex < 2 ^ s.geom.tw := (splitAddress_fit s.geom v).tblIndex_lt
  refine ⟨Nat.shiftLeft_add_eq_or_of_lt htbl _, Nat.le_sub_one_of_lt (frame_shiftLeft_add_lt _ htbl),
    fun hP hbit => ⟨fun h => ?outOfRange, fun Q hQ => ?read⟩⟩
  case outOfRange =>
    exact (WalkExit.pteOutOfRange (directoryRead_of_bit hP hbit) ((s.mem.read_eq_none_iff _).2 h)).exec_eq
  case read =>
    obtain ⟨hpath, -⟩ := (tableRead_of_bit hP hbit hQ).path_eq s.disk
    exact ⟨_, _, exec_eq_answered _ s, hpath, rfl, rfl, rfl⟩

/-- Settles O21: both bytes have the sentinel as their frame. -/
theorem sentinelGivesTableFault : Obligations.SentinelGivesTableFault := by
  intro s v P Q f hP hbit hQ hbyte
  have hframe : Q.toNat % 128 = 0x7F := by obtain rfl | rfl := hbyte <;> rfl
  have hexit : WalkExit s.geom s.mem s.disk v _ :=
    .tableFault (tableRead_of_bit hP hbit hQ) ((splitEntry_frame_eq_sentinel_iff _).2 hframe)
  rw [← tablePath_eq (walkFinal_eq hframe v)]
  exact ⟨hexit.exec_eq, congrArg (fun t => t.reads.length) hexit.walk_eq⟩

/-- Settles O22: below `0x7F` the byte is its own frame, with valid bit 0. -/
theorem notResidentPageIsReadFromDisk : Obligations.NotResidentPageIsReadFromDisk := by
  intro s v P Q f a p hP hbit hQ hlt
  have htbl := tableRead_of_bit hP hbit hQ
  have hframe : Q.toNat % 128 = Q.toNat := by omega
  have hs := mt (splitEntry_frame_eq_sentinel_iff Q.toNat).1 (by omega)
  have hv := (splitEntry_valid_eq_false_iff Q).2 (by omega)
  have hfinal : walkFinal s.geom v Q = a := walkFinal_eq hframe v
  have hpath : tablePath s.geom v P Q = p := tablePath_eq hfinal P
  rw [← hpath, ← hfinal]
  exact ⟨fun h => (WalkExit.diskOutOfRange htbl hs hv ((s.disk.read_eq_none_iff _).2 h)).exec_eq,
    fun b h => (WalkExit.diskResolved htbl hs hv h).exec_eq⟩

/-- Settles O23: from `0x80` to `0xFE` the frame is the byte without its valid bit, which is 1. -/
theorem residentPageIsReadFromMemory : Obligations.ResidentPageIsReadFromMemory := by
  intro s v P Q f a p hP hbit hQ hge hlt
  have htbl := tableRead_of_bit hP hbit hQ
  have hframe : Q.toNat % 128 = Q.toNat - 0x80 := by omega
  have hs := mt (splitEntry_frame_eq_sentinel_iff Q.toNat).1 (by omega)
  have hv := (splitEntry_valid_eq_true_iff Q).2 (by omega)
  have hfinal : walkFinal s.geom v Q = a := walkFinal_eq hframe v
  have hpath : tablePath s.geom v P Q = p := tablePath_eq hfinal P
  rw [← hpath, ← hfinal]
  exact ⟨fun h => (WalkExit.memOutOfRange htbl hs hv ((s.mem.read_eq_none_iff _).2 h)).exec_eq,
    fun b h => (WalkExit.memResolved htbl hs hv h).exec_eq⟩

/-- Settles O28: the directory entry's byte decides whether the table is read, and then the table entry's byte
decides the rest. -/
theorem walkLaws : Obligations.WalkLaws := by
  intro g mem disk v hn f r
  refine ⟨?outcomes, walk_status_of_nominal hn v, ?highBits, fun w h => walk_of_samePage hn h⟩
  case highBits =>
    exact walk_eq_of_mod_eq (by rw [and_mask_eq_mod, Nat.mod_mod]) mem disk
  case outcomes =>
    obtain ⟨P, hP, hv⟩ | ⟨P, Q, hQ⟩ := directoryFault_or_tableRead hn v
    · have hbit : P.getLsbD 7 = false := (splitEntry_valid_eq_getLsbD P).symm.trans hv
      have hr : r.status = .directoryFault := by simp only [r, walk_of_pde_invalid hP hv]; rfl
      refine ⟨P, hP, iff_of_true hr hbit, fun _ => ?_, fun hbit' => absurd hbit' (ne_true_of_eq_false hbit)⟩
      rw [hr]
      decide
    · have hbit : P.getLsbD 7 = true := (splitEntry_valid_eq_getLsbD P).symm.trans hQ.valid
      obtain ⟨-, hstatus⟩ := hQ.path_eq disk
      have hpte : mem.read (((P.toNat % 128) <<< g.tw) + f.tblIndex) = some Q :=
        splitEntry_frame_toNat P.toNat ▸ hQ.pte
      exact ⟨P, hQ.pde, iff_of_false hstatus (ne_false_of_eq_true hbit),
        fun hbit' => absurd hbit' (ne_false_of_eq_true hbit), fun _ => ⟨Q, hpte, hQ.laws hn⟩⟩

end Sys2Proof.Machine
end
